-- ==== Sys2Proof/Word.lean ====
section
/-! DEFINITION. The words of the engine: a byte, a 16-bit word, a nibble and a 12-bit address field
(00_scope.md R5, R7). Every value is unsigned (R8). -/

namespace Sys2Proof

/-- A byte of memory, a general register or a timer: 8 bits (00_scope.md R5). -/
abbrev Byte := BitVec 8

/-- An opcode, `PC`, `I` or a stack entry: 16 bits (00_scope.md R5). -/
abbrev Word := BitVec 16

/-- A 4-bit field of an opcode (00_scope.md R7, "Nibble"). -/
abbrev Nibble := BitVec 4

/-- The 12-bit address field `nnn` of an opcode (30_encoding.md R71). -/
abbrev Addr12 := BitVec 12

end Sys2Proof
end

