-- ==== Sys2Proof/Syntax.lean ====
section
/-! DEFINITION. The instructions: one constructor per row of spec/opcode_table.json, in the table's order
(30_encoding.md R75). -/

namespace Sys2Proof

/-- The number of a general register V0 to VF: a 4-bit field, so never out of range (30_encoding.md R73). -/
abbrev Reg := Fin 16

/-- An instruction. A constructor keeps every bit of its opcode that its row's mask does not fix, those its handler
ignores included (30_encoding.md R79), so that the opcode can be recovered from it (log 7). -/
inductive Instr where
  /-- `00E0` CLS (41_control_flow.md R120) -/
  | cls
  /-- `00EE` RET (R121) -/
  | ret
  /-- `0nnn` SYS nnn, `nnn` ignored (R129) -/
  | sys (nnn : Addr12)
  /-- `1nnn` JP nnn (R122) -/
  | jp (nnn : Addr12)
  /-- `2nnn` CALL nnn (R123) -/
  | call (nnn : Addr12)
  /-- `3xkk` SE Vx, kk (R124) -/
  | seImm (x : Reg) (kk : Byte)
  /-- `4xkk` SNE Vx, kk (R125) -/
  | sneImm (x : Reg) (kk : Byte)
  /-- `5xy0` SE Vx, Vy (R126) -/
  | seReg (x y : Reg)
  /-- `6xkk` LD Vx, kk (42_arith_logic.md R150) -/
  | ldImm (x : Reg) (kk : Byte)
  /-- `7xkk` ADD Vx, kk (R152) -/
  | addImm (x : Reg) (kk : Byte)
  /-- `8xy0` LD Vx, Vy (R151) -/
  | ldReg (x y : Reg)
  /-- `8xy1` OR Vx, Vy (R153) -/
  | orReg (x y : Reg)
  /-- `8xy2` AND Vx, Vy (R154) -/
  | andReg (x y : Reg)
  /-- `8xy3` XOR Vx, Vy (R155) -/
  | xorReg (x y : Reg)
  /-- `8xy4` ADD Vx, Vy (R156) -/
  | addReg (x y : Reg)
  /-- `8xy5` SUB Vx, Vy (R157) -/
  | subReg (x y : Reg)
  /-- `8xy6` SHR Vx, `y` ignored (R159) -/
  | shr (x y : Reg)
  /-- `8xy7` SUBN Vx, Vy (R158) -/
  | subn (x y : Reg)
  /-- `8xyE` SHL Vx, `y` ignored (R160) -/
  | shl (x y : Reg)
  /-- `9xy0` SNE Vx, Vy (41_control_flow.md R127) -/
  | sneReg (x y : Reg)
  /-- `Annn` LD I, nnn (44_memory_ops.md R190) -/
  | ldI (nnn : Addr12)
  /-- `Bnnn` JP V0, nnn (41_control_flow.md R128) -/
  | jpV0 (nnn : Addr12)
  /-- `Cxkk` RND Vx, kk (42_arith_logic.md R161) -/
  | rnd (x : Reg) (kk : Byte)
  /-- `Dxyn` DRW Vx, Vy, n (43_display.md R180) -/
  | drw (x y : Reg) (n : Nibble)
  /-- `Ex9E` SKP Vx (45_timer_input.md R213) -/
  | skp (x : Reg)
  /-- `ExA1` SKNP Vx (R214) -/
  | sknp (x : Reg)
  /-- `Fx07` LD Vx, DT (R210) -/
  | ldVxDT (x : Reg)
  /-- `Fx0A` LD Vx, K (R215) -/
  | ldVxK (x : Reg)
  /-- `Fx15` LD DT, Vx (R211) -/
  | ldDTVx (x : Reg)
  /-- `Fx18` LD ST, Vx (R212) -/
  | ldSTVx (x : Reg)
  /-- `Fx1E` ADD I, Vx (44_memory_ops.md R191) -/
  | addI (x : Reg)
  /-- `Fx29` LD F, Vx (R192) -/
  | ldF (x : Reg)
  /-- `Fx33` LD B, Vx (R193) -/
  | ldB (x : Reg)
  /-- `Fx55` LD [I], Vx (R194) -/
  | ldMemVx (x : Reg)
  /-- `Fx65` LD Vx, [I] (R195) -/
  | ldVxMem (x : Reg)
  /-- any other opcode: the no-op of 40_step.md R105 (30_encoding.md R77) -/
  | unrecognised (op : Word)
deriving DecidableEq, Repr

end Sys2Proof
end

