-- ==== Sys2Proof/Machine/Fields.lean ====
section
/-! DEFINITION. The bit fields of an opcode (30_encoding.md R71), the bits of a register number, and the encodings
the spec lists as unrecognised (R77). -/

namespace Sys2Proof

/-- `f`, the operation family: bits 15 to 12. -/
def fieldF (op : Word) : Nibble := op.extractLsb' 12 4

/-- `x`, register index X: bits 11 to 8. -/
def fieldX (op : Word) : Reg := ⟨(op.extractLsb' 8 4).toNat, (op.extractLsb' 8 4).isLt⟩

/-- `y`, register index Y: bits 7 to 4. -/
def fieldY (op : Word) : Reg := ⟨(op.extractLsb' 4 4).toNat, (op.extractLsb' 4 4).isLt⟩

/-- `n`, the 4-bit immediate: bits 3 to 0. -/
def fieldN (op : Word) : Nibble := op.extractLsb' 0 4

/-- `kk`, the 8-bit immediate: bits 7 to 0. -/
def fieldKK (op : Word) : Byte := op.extractLsb' 0 8

/-- `nnn`, the 12-bit address: bits 11 to 0. -/
def fieldNNN (op : Word) : Addr12 := op.extractLsb' 0 12

/-- The four bits that name register `r` in an opcode. -/
def regBits (r : Reg) : Nibble := BitVec.ofNat 4 r.val

/-- Format `NNN`, and `FIXED`: `ffff nnnn nnnn nnnn` (30_encoding.md R72). -/
def formNNN (f : Nibble) (nnn : Addr12) : Word := f ++ nnn

/-- Format `XKK`, and `XSS` with `kk` the sub-function: `ffff xxxx kkkk kkkk` (30_encoding.md R72). -/
def formXKK (f : Nibble) (x : Reg) (kk : Byte) : Word := f ++ regBits x ++ kk

/-- Format `XYN`, and `XY0` and `XYS` with `n` the sub-function: `ffff xxxx yyyy nnnn` (30_encoding.md R72). -/
def formXYN (f : Nibble) (x y : Reg) (n : Nibble) : Word := f ++ regBits x ++ regBits y ++ n

/-- The two bytes of an opcode in memory order: the most significant first (20_memory.md R53). -/
def wordBytes (op : Word) : List Byte := [op.extractLsb' 8 8, op.extractLsb' 0 8]

/-- The opcode of two bytes in memory order (20_memory.md R53; 40_step.md R101). -/
def bytesWord (hi lo : Byte) : Word := hi ++ lo

/-- The opcodes that match no instruction row, as 30_encoding.md R77 lists them: `5xyn` and `9xyn` with `n` ≠ 0,
`8xyn` with `n` in 8, 9, A to D, F, and the `E` and `F` families off their listed low bytes. -/
def isUnrecognisedWord (op : Word) : Bool :=
  if fieldF op = 0x5#4 then fieldN op != 0#4
  else if fieldF op = 0x8#4 then
    [0x8#4, 0x9#4, 0xA#4, 0xB#4, 0xC#4, 0xD#4, 0xF#4].contains (fieldN op)
  else if fieldF op = 0x9#4 then fieldN op != 0#4
  else if fieldF op = 0xE#4 then !([0x9E#8, 0xA1#8].contains (fieldKK op))
  else if fieldF op = 0xF#4 then
    !([0x07#8, 0x0A#8, 0x15#8, 0x18#8, 0x1E#8, 0x29#8, 0x33#8, 0x55#8, 0x65#8].contains (fieldKK op))
  else false

end Sys2Proof
end

