-- ==== Sys2Proof/Decode.lean ====
section
/-! DEFINITION. The opcode map as a priority-ordered table of (mask, pattern) pairs, the decoder, which is total, and
the encoder (30_encoding.md R74, R75). -/

namespace Sys2Proof

/-- One row of the opcode map: an opcode whose bits under `mask` equal `pattern` is the instruction `build` reads
from its fields (30_encoding.md R74). -/
structure OpcodeRow where
  mask : Word
  pattern : Word
  build : Word → Instr

/-- The row selects `op`: `(op AND mask) = match` (30_encoding.md R74). -/
def OpcodeRow.selects (r : OpcodeRow) (op : Word) : Bool := op &&& r.mask == r.pattern

/-- Rows 1 to 10 of 30_encoding.md R75: control flow and the immediate forms. -/
def opcodeRowsImm : List OpcodeRow :=
  [ ⟨0xFFFF#16, 0x00E0#16, fun _ => .cls⟩,
    ⟨0xFFFF#16, 0x00EE#16, fun _ => .ret⟩,
    ⟨0xF000#16, 0x0000#16, fun op => .sys (fieldNNN op)⟩,
    ⟨0xF000#16, 0x1000#16, fun op => .jp (fieldNNN op)⟩,
    ⟨0xF000#16, 0x2000#16, fun op => .call (fieldNNN op)⟩,
    ⟨0xF000#16, 0x3000#16, fun op => .seImm (fieldX op) (fieldKK op)⟩,
    ⟨0xF000#16, 0x4000#16, fun op => .sneImm (fieldX op) (fieldKK op)⟩,
    ⟨0xF00F#16, 0x5000#16, fun op => .seReg (fieldX op) (fieldY op)⟩,
    ⟨0xF000#16, 0x6000#16, fun op => .ldImm (fieldX op) (fieldKK op)⟩,
    ⟨0xF000#16, 0x7000#16, fun op => .addImm (fieldX op) (fieldKK op)⟩ ]

/-- Rows 11 to 20 of 30_encoding.md R75: the two-register forms. -/
def opcodeRowsReg : List OpcodeRow :=
  [ ⟨0xF00F#16, 0x8000#16, fun op => .ldReg (fieldX op) (fieldY op)⟩,
    ⟨0xF00F#16, 0x8001#16, fun op => .orReg (fieldX op) (fieldY op)⟩,
    ⟨0xF00F#16, 0x8002#16, fun op => .andReg (fieldX op) (fieldY op)⟩,
    ⟨0xF00F#16, 0x8003#16, fun op => .xorReg (fieldX op) (fieldY op)⟩,
    ⟨0xF00F#16, 0x8004#16, fun op => .addReg (fieldX op) (fieldY op)⟩,
    ⟨0xF00F#16, 0x8005#16, fun op => .subReg (fieldX op) (fieldY op)⟩,
    ⟨0xF00F#16, 0x8006#16, fun op => .shr (fieldX op) (fieldY op)⟩,
    ⟨0xF00F#16, 0x8007#16, fun op => .subn (fieldX op) (fieldY op)⟩,
    ⟨0xF00F#16, 0x800E#16, fun op => .shl (fieldX op) (fieldY op)⟩,
    ⟨0xF00F#16, 0x9000#16, fun op => .sneReg (fieldX op) (fieldY op)⟩ ]

/-- Rows 21 to 35 of 30_encoding.md R75: `I`, the random byte, the display, the keypad, the timers and the memory
operations. -/
def opcodeRowsSpecial : List OpcodeRow :=
  [ ⟨0xF000#16, 0xA000#16, fun op => .ldI (fieldNNN op)⟩,
    ⟨0xF000#16, 0xB000#16, fun op => .jpV0 (fieldNNN op)⟩,
    ⟨0xF000#16, 0xC000#16, fun op => .rnd (fieldX op) (fieldKK op)⟩,
    ⟨0xF000#16, 0xD000#16, fun op => .drw (fieldX op) (fieldY op) (fieldN op)⟩,
    ⟨0xF0FF#16, 0xE09E#16, fun op => .skp (fieldX op)⟩,
    ⟨0xF0FF#16, 0xE0A1#16, fun op => .sknp (fieldX op)⟩,
    ⟨0xF0FF#16, 0xF007#16, fun op => .ldVxDT (fieldX op)⟩,
    ⟨0xF0FF#16, 0xF00A#16, fun op => .ldVxK (fieldX op)⟩,
    ⟨0xF0FF#16, 0xF015#16, fun op => .ldDTVx (fieldX op)⟩,
    ⟨0xF0FF#16, 0xF018#16, fun op => .ldSTVx (fieldX op)⟩,
    ⟨0xF0FF#16, 0xF01E#16, fun op => .addI (fieldX op)⟩,
    ⟨0xF0FF#16, 0xF029#16, fun op => .ldF (fieldX op)⟩,
    ⟨0xF0FF#16, 0xF033#16, fun op => .ldB (fieldX op)⟩,
    ⟨0xF0FF#16, 0xF055#16, fun op => .ldMemVx (fieldX op)⟩,
    ⟨0xF0FF#16, 0xF065#16, fun op => .ldVxMem (fieldX op)⟩ ]

/-- The 35 instruction rows in priority order (30_encoding.md R75). Row 36, the catch-all, is `firstMatch`'s last
case. The values of all but `6xkk` and `8xy4` and every mask are the spec's choice (log 4). -/
def opcodeTable : List OpcodeRow := opcodeRowsImm ++ opcodeRowsReg ++ opcodeRowsSpecial

/-- The first row that selects `op`; past the last row, the catch-all (30_encoding.md R74). -/
def firstMatch : List OpcodeRow → Word → Instr
  | [], op => .unrecognised op
  | r :: rs, op => if r.selects op then r.build op else firstMatch rs op

/-- The instruction an opcode is. Total: every 16-bit value has one (30_encoding.md R74; 40_step.md R103). -/
def decodeWord (op : Word) : Instr := firstMatch opcodeTable op

/-- Why bytes do not decode: no opcode is illegal (30_encoding.md R77), so only for want of a byte. -/
inductive DecodeError where
  /-- raised by `decodeBytes` on fewer than two bytes; safe, and no step raises it: a fetch always has two -/
  | truncated
deriving DecidableEq, Repr

/-- The instruction at the head of a sequence of bytes, and the bytes after it: two bytes, most significant first
(30_encoding.md R70). -/
def decodeBytes : List Byte → Except DecodeError (Instr × List Byte)
  | hi :: lo :: rest => .ok (decodeWord (bytesWord hi lo), rest)
  | _ => .error .truncated

/-- The opcode of an instruction, by its row of 30_encoding.md R75. -/
def encode : Instr → Word
  | .cls => 0x00E0#16
  | .ret => 0x00EE#16
  | .sys nnn => formNNN 0x0#4 nnn
  | .jp nnn => formNNN 0x1#4 nnn
  | .call nnn => formNNN 0x2#4 nnn
  | .seImm x kk => formXKK 0x3#4 x kk
  | .sneImm x kk => formXKK 0x4#4 x kk
  | .seReg x y => formXYN 0x5#4 x y 0x0#4
  | .ldImm x kk => formXKK 0x6#4 x kk
  | .addImm x kk => formXKK 0x7#4 x kk
  | .ldReg x y => formXYN 0x8#4 x y 0x0#4
  | .orReg x y => formXYN 0x8#4 x y 0x1#4
  | .andReg x y => formXYN 0x8#4 x y 0x2#4
  | .xorReg x y => formXYN 0x8#4 x y 0x3#4
  | .addReg x y => formXYN 0x8#4 x y 0x4#4
  | .subReg x y => formXYN 0x8#4 x y 0x5#4
  | .shr x y => formXYN 0x8#4 x y 0x6#4
  | .subn x y => formXYN 0x8#4 x y 0x7#4
  | .shl x y => formXYN 0x8#4 x y 0xE#4
  | .sneReg x y => formXYN 0x9#4 x y 0x0#4
  | .ldI nnn => formNNN 0xA#4 nnn
  | .jpV0 nnn => formNNN 0xB#4 nnn
  | .rnd x kk => formXKK 0xC#4 x kk
  | .drw x y n => formXYN 0xD#4 x y n
  | .skp x => formXKK 0xE#4 x 0x9E#8
  | .sknp x => formXKK 0xE#4 x 0xA1#8
  | .ldVxDT x => formXKK 0xF#4 x 0x07#8
  | .ldVxK x => formXKK 0xF#4 x 0x0A#8
  | .ldDTVx x => formXKK 0xF#4 x 0x15#8
  | .ldSTVx x => formXKK 0xF#4 x 0x18#8
  | .addI x => formXKK 0xF#4 x 0x1E#8
  | .ldF x => formXKK 0xF#4 x 0x29#8
  | .ldB x => formXKK 0xF#4 x 0x33#8
  | .ldMemVx x => formXKK 0xF#4 x 0x55#8
  | .ldVxMem x => formXKK 0xF#4 x 0x65#8
  | .unrecognised op => op

/-- The bytes of an instruction in memory order (20_memory.md R53). -/
def encodeBytes (i : Instr) : List Byte := wordBytes (encode i)

/-- The opcode of a row of spec/opcode_table.json: its low `nbits` bits are those of `w`, every bit above is 0. -/
def tableOpcode (nbits w : Nat) : Word := BitVec.ofNat 16 (w % 2 ^ nbits)

/-- What the decoder reads from the instruction whose bits are `w`, laid out in memory order. -/
def decodeTableWord (nbits w : Nat) : Option Instr :=
  match decodeBytes (wordBytes (tableOpcode nbits w)) with
  | .ok (i, _) => some i
  | .error _ => none

end Sys2Proof
end

