-- ==== Sys2Proof/Config.lean ====
section
/-! DEFINITION. What is fixed for the machine, and its one free value. The parameter `FONT` (10_state.md R31)
stands in Machine/Font.lean. -/

namespace Sys2Proof.Config

/-- `MEMSIZE`, the number of bytes of memory (00_scope.md R5). -/
def memSize : Nat := 4096

/-- The reset value of `PC`, `PROGRAM_BASE` (00_scope.md R5; 10_state.md R23). -/
def programBase : Word := 0x200#16

/-- The `k`-th byte the random source supplies. It has no body: it is the spec's free draw, any value 0 to 255
with no law and no link between draws (42_arith_logic.md R161; 60_exceptions.md R250).
DESIGN CHOICE (log 1), safe for a claim about one run: a proof can use no value of it. Which byte is the `k`-th depends on
`k` alone, so that two engines, or two runs, take the same bytes in the same places. That link is the model's choice
and not the spec's (10_state.md R36 makes the source an input of each run), unsafe for a claim that compares two
runs. -/
opaque randomByte : Nat → Byte

end Sys2Proof.Config
end

