-- ==== Sys2Proof/Machine/Font.lean ====
section
/-! DEFINITION. The built-in font (10_state.md R29 to R31) and what memory holds at reset (20_memory.md R57). -/

namespace Sys2Proof.Machine

/-- `FONT_BASE`, where the glyph of digit 0 stands (00_scope.md R5; 10_state.md R30). -/
def fontBase : Nat := 0x050

/-- The glyphs of the digits 0 to 7: five rows each, top first (10_state.md R31). -/
def fontLow : List Byte :=
  [0xF0, 0x90, 0x90, 0x90, 0xF0,
   0x20, 0x60, 0x20, 0x20, 0x70,
   0xF0, 0x10, 0xF0, 0x80, 0xF0,
   0xF0, 0x10, 0xF0, 0x10, 0xF0,
   0x90, 0x90, 0xF0, 0x10, 0x10,
   0xF0, 0x80, 0xF0, 0x10, 0xF0,
   0xF0, 0x80, 0xF0, 0x90, 0xF0,
   0xF0, 0x10, 0x20, 0x40, 0x40]

/-- The glyphs of the digits 8 to F (10_state.md R31). -/
def fontHigh : List Byte :=
  [0xF0, 0x90, 0xF0, 0x90, 0xF0,
   0xF0, 0x90, 0xF0, 0x10, 0xF0,
   0xF0, 0x90, 0xF0, 0x90, 0x90,
   0xE0, 0x90, 0xE0, 0x90, 0xE0,
   0xF0, 0x80, 0x80, 0x80, 0xF0,
   0xE0, 0x90, 0x90, 0x90, 0xE0,
   0xF0, 0x80, 0xF0, 0x80, 0xF0,
   0xF0, 0x80, 0xF0, 0x80, 0x80]

/-- The parameter `FONT` at its default value, the conventional font (10_state.md R31; decision D11).
PRESUMED (log 2), unsafe: the source gives no glyph byte. -/
def font : List Byte := fontLow ++ fontHigh

/-- What the byte at address `a` holds after reset, and so what an address that memory does not list reads as: the
font at 0x050 to 0x09F, 0 elsewhere (20_memory.md R57; log 3). -/
def resetByte (a : Nat) : Byte := if a < fontBase then 0#8 else font.getD (a - fontBase) 0#8

end Sys2Proof.Machine
end

