-- ==== Sys2Proof/Machine/State.lean ====
section
/-! DEFINITION. The state of the engine (10_state.md), its fault causes (60_exceptions.md R230) and its state after
reset (70_reset_and_hazards.md R260). -/

namespace Sys2Proof.Machine

/-- The causes of a fault (60_exceptions.md R230). A meaning raises one; `step` then records it in the state (R233)
and, once one is recorded, answers it (R234). The spec chose all three itself (decisions D5, D6, D7; log 4). -/
inductive Fault where
  /-- raised by the fetch with `PC` above 0xFFE; safe: the machine stops where the source gives no behaviour -/
  | fetchOutOfRange (pc : Word)
  /-- raised by `DRW`, `LD B, Vx`, `LD [I], Vx` and `LD Vx, [I]`, with the first data address above 0xFFF; safe -/
  | memOutOfRange (addr : Nat)
  /-- raised by `SKP` and `SKNP`, with the key index above 15; safe -/
  | keyIndexOutOfRange (index : Byte)
deriving DecidableEq, Repr

/-- Why an instruction has no meaning. -/
inductive Refusal where
  /-- raised by the dispatch for an instruction not modelled yet, by its mnemonic; safe; no arm raises it now -/
  | notModelled (mnemonic : String)
deriving DecidableEq, Repr

/-- Memory as the bytes that differ from the reset contents, at strictly rising addresses (log 3). -/
abbrev Memory := List Host.Cell

/-- The framebuffer: 32 rows of 64 pixels, row 0 at the top, `true` set (10_state.md R32). -/
abbrev Framebuffer := Vector (Vector Bool 64) 32

/-- The state of one engine: the tuple of 10_state.md, and `draws`, which is the model's own (log 1). -/
structure State where
  /-- V0 to VF (R20, R21) -/
  v : Vector Byte 16
  /-- the index register I (R22) -/
  i : Word
  /-- the program counter PC (R23) -/
  pc : Word
  /-- the stack pointer SP, the next free slot (R24) -/
  sp : Fin 16
  /-- the call stack (R25) -/
  stack : Vector Word 16
  /-- the delay timer DT (R26) -/
  dt : Byte
  /-- the sound timer ST (R27) -/
  st : Byte
  /-- the memory (R28, R29) -/
  mem : Memory
  /-- the framebuffer (R32) -/
  fb : Framebuffer
  /-- the keypad snapshot (R33) -/
  keys : Vector Bool 16
  /-- the recorded fault (R35) -/
  fault : Option Fault
  /-- how many bytes the random source has supplied: the model's own, not the spec's (R36; log 1) -/
  draws : Nat
deriving DecidableEq, Repr

/-- The state of a freshly constructed engine, `new()` (70_reset_and_hazards.md R260, R261; the table at the end of
10_state.md). The spec gives every value but that of `draws` (log 1). -/
def State.reset : State where
  v := Vector.replicate 16 0#8
  i := 0#16
  pc := Config.programBase
  sp := 0
  stack := Vector.replicate 16 0#16
  dt := 0#8
  st := 0#8
  mem := []
  fb := Vector.replicate 32 (Vector.replicate 64 false)
  keys := Vector.replicate 16 false
  fault := none
  draws := 0

end Sys2Proof.Machine
end

