-- ==== Sys2Proof/Machine/Ops.lean ====
section
/-! DEFINITION. The shared operations: memory, registers, the program counter, the call stack, the framebuffer, the
timers, the fetch, and raising a fault. Every meaning is written over these. -/

namespace Sys2Proof.Machine

/-! ## Updates of one field -/

/-- Write the index register. -/
def State.setI (s : State) (a : Word) : State := { s with i := a }

/-- Write the program counter. -/
def State.setPc (s : State) (a : Word) : State := { s with pc := a }

/-- Write the stack pointer. -/
def State.setSp (s : State) (p : Fin 16) : State := { s with sp := p }

/-- Write one stack entry. -/
def State.setSlot (s : State) (p : Fin 16) (a : Word) : State := { s with stack := s.stack.set p.val a p.isLt }

/-- Write the delay timer. -/
def State.setDt (s : State) (b : Byte) : State := { s with dt := b }

/-- Write the sound timer. -/
def State.setSt (s : State) (b : Byte) : State := { s with st := b }

/-- Replace the memory. -/
def State.setMem (s : State) (m : Memory) : State := { s with mem := m }

/-- Replace the framebuffer. -/
def State.setFb (s : State) (fb : Framebuffer) : State := { s with fb := fb }

/-- Replace the keypad snapshot. -/
def State.setKeys (s : State) (k : Vector Bool 16) : State := { s with keys := k }

/-- Write the fault status. -/
def State.setFault (s : State) (f : Option Fault) : State := { s with fault := f }

/-- Count one byte taken from the random source (log 1). -/
def State.countDraw (s : State) : State := { s with draws := s.draws + 1 }

/-! ## General registers -/

/-- `V[r]` (00_scope.md R9). -/
def State.readReg (s : State) (r : Reg) : Byte := s.v[r.val]

/-- `V[r] <- b` (00_scope.md R9). No register is hardwired (10_state.md R20). -/
def State.writeReg (s : State) (r : Reg) (b : Byte) : State := { s with v := s.v.set r.val b r.isLt }

/-- VF, the flag register (10_state.md R21). -/
def flagReg : Reg := 15

/-- V0 to V`x`, in order (44_memory_ops.md R194). -/
def State.regsUpTo (s : State) (x : Reg) : List Byte := s.v.toList.take (x.val + 1)

/-- `V[j] <- bs[j]` for every `j` below the length of `bs`; the registers above keep their value
(44_memory_ops.md R195). -/
def State.writeRegsFrom0 (s : State) (bs : List Byte) : State :=
  { s with v := Vector.ofFn fun j => bs.getD j.val s.v[j.val] }

/-! ## Memory -/

/-- The byte at `a`: the listed one, else the reset contents (10_state.md R28, R29). -/
def Memory.read : Memory → Nat → Byte
  | [], a => resetByte a
  | c :: cs, a => if c.1 = a then c.2 else Memory.read cs a

/-- The list `cs` with `a` holding `b` in front of it, unless `b` is what `a` reads as unlisted. -/
def Memory.cons (a : Nat) (b : Byte) (cs : Memory) : Memory := if b = resetByte a then cs else (a, b) :: cs

/-- Store `b` at `a`, keeping the addresses rising and no byte listed that equals its reset contents. -/
def Memory.write : Memory → Nat → Byte → Memory
  | [], a, b => Memory.cons a b []
  | c :: cs, a, b =>
    if c.1 < a then c :: Memory.write cs a b
    else if c.1 = a then Memory.cons a b cs
    else Memory.cons a b (c :: cs)

/-- Every listed address is at least `lo` and inside memory, the addresses rise strictly, and no listed byte equals
what its address reads as unlisted. -/
def Memory.wfFrom : Nat → Memory → Bool
  | _, [] => true
  | lo, c :: cs => decide (lo ≤ c.1) && decide (c.1 < Config.memSize) && c.2 != resetByte c.1 && Memory.wfFrom (c.1 + 1) cs

/-- The canonical form of a memory (log 3). -/
def Memory.wf (m : Memory) : Bool := Memory.wfFrom 0 m

/-- Store the bytes `bs` at `a`, `a + 1`, … with no bound check, for the host's `load_image`, which makes its own
(70_reset_and_hazards.md R262). -/
def Memory.writeAll : Memory → Nat → List Byte → Memory
  | m, _, [] => m
  | m, a, b :: bs => Memory.writeAll (m.write a b) (a + 1) bs

/-- `MemRead(a, 1)`: faults above 0xFFF (00_scope.md R9; 20_memory.md R56). -/
def memRead (m : Memory) (a : Nat) : Except Fault Byte :=
  if a < Config.memSize then .ok (m.read a) else .error (.memOutOfRange a)

/-- `MemWrite(a, 1, b)`: faults above 0xFFF (00_scope.md R9; 20_memory.md R56). -/
def memWrite (m : Memory) (a : Nat) (b : Byte) : Except Fault Memory :=
  if a < Config.memSize then .ok (m.write a b) else .error (.memOutOfRange a)

/-- Read `n` bytes from `a` up, in increasing address order; the first address out of range faults (20_memory.md R63;
60_exceptions.md R235). -/
def loadBytes (m : Memory) : Nat → Nat → Except Fault (List Byte)
  | _, 0 => .ok []
  | a, n + 1 =>
    match memRead m a with
    | .error c => .error c
    | .ok b =>
      match loadBytes m (a + 1) n with
      | .error c => .error c
      | .ok bs => .ok (b :: bs)

/-- Write the bytes `bs` from `a` up, in increasing address order; the first address out of range faults, and a fault
leaves no memory behind (20_memory.md R63; 60_exceptions.md R233, R235). -/
def storeBytes : Memory → Nat → List Byte → Except Fault Memory
  | m, _, [] => .ok m
  | m, a, b :: bs =>
    match memWrite m a b with
    | .error c => .error c
    | .ok m' => storeBytes m' (a + 1) bs

/-! ## Program counter -/

/-- `PC <- (PC + 2) mod 2^16`: the advance after a fetch (40_step.md R102), and what a skip adds to it
(41_control_flow.md R124). -/
def State.advancePc (s : State) : State := s.setPc (s.pc + 2#16)

/-- Skip the next instruction when `c` holds (41_control_flow.md R124). -/
def State.skipIf (s : State) (c : Bool) : State := if c then s.advancePc else s

/-- `PC <- (PC - 2) mod 2^16`, back to the instruction now running (45_timer_input.md R215). -/
def State.rewindPc (s : State) : State := s.setPc (s.pc - 2#16)

/-! ## Call stack -/

/-- Push `PC` on the call stack: write at the pointer, then increment it modulo 16 (10_state.md R24;
41_control_flow.md R123). Overflow overwrites the oldest entry and is no fault (60_exceptions.md R232). -/
def State.pushPc (s : State) : State := (s.setSlot s.sp s.pc).setSp (s.sp + 1)

/-- Pop the call stack into `PC`: decrement the pointer modulo 16, then read; the entry stays (10_state.md R24, R25;
41_control_flow.md R121). Underflow wraps and is no fault (60_exceptions.md R232). -/
def State.popPc (s : State) : State := (s.setSp (s.sp - 1)).setPc s.stack[(s.sp - 1).val]

/-! ## Framebuffer -/

/-- `fb[r][c]` (00_scope.md R9). -/
def Framebuffer.pixel (fb : Framebuffer) (r : Fin 32) (c : Fin 64) : Bool := fb[r.val][c.val]

/-- `fb[r][c] <- not fb[r][c]`. -/
def Framebuffer.toggle (fb : Framebuffer) (r : Fin 32) (c : Fin 64) : Framebuffer :=
  fb.set r.val (fb[r.val].set c.val (!fb[r.val][c.val]) c.isLt) r.isLt

/-- Every pixel clear (41_control_flow.md R120). -/
def Framebuffer.clear : Framebuffer := Vector.replicate 32 (Vector.replicate 64 false)

/-! ## Fetch, timers, faults -/

/-- `Fetch(PC)`: two bytes, big-endian, at any `PC` up to 0xFFE, odd or even (40_step.md R101; 20_memory.md R54). -/
def fetch (s : State) : Except Fault Word :=
  if s.pc.toNat + 1 < Config.memSize then
    .ok (bytesWord (Memory.read s.mem s.pc.toNat) (Memory.read s.mem (s.pc.toNat + 1)))
  else .error (.fetchOutOfRange s.pc)

/-- Store the opcode `op` where the next fetch reads it. At a `PC` from which nothing can be fetched there is no such
place, and the state is left alone. -/
def State.placeOpcode (s : State) (op : Word) : State :=
  if s.pc.toNat + 1 < Config.memSize then s.setMem (Memory.writeAll s.mem s.pc.toNat (wordBytes op)) else s

/-- One timer's tick: decremented while positive (40_step.md R104). -/
def tick (t : Byte) : Byte := if 0#8 < t then t - 1#8 else t

/-- `TickTimers()` (40_step.md R104). -/
def State.tickTimers (s : State) : State := (s.setDt (tick s.dt)).setSt (tick s.st)

/-- `raise c` inside an instruction: it abandons the instruction and everything it has written (60_exceptions.md
R233, parts 1 and 2). -/
def raise (c : Fault) : Host.Outcome State Fault Refusal := .fault c

/-- Taking a fault, at the state `s` the step started from: the cause is recorded and nothing else changes; no state
is saved anywhere and control goes nowhere (60_exceptions.md R233 part 3, R237). There is no return from a fault: a
recorded fault is never cleared, and no instruction returns from one (R234, R238). -/
def State.takeFault (s : State) (c : Fault) : State := s.setFault (some c)

/-- Go on with `k` after an operation that may fault; its fault is raised. -/
def orRaise {α : Type} (r : Except Fault α) (k : α → State) : Host.Outcome State Fault Refusal :=
  match r with
  | .ok a => .next (k a)
  | .error c => raise c

end Sys2Proof.Machine
end

