-- ==== Sys2Proof/Machine/Flags.lean ====
section
/-! DEFINITION. The flag computations: every value an instruction writes to VF as a flag (10_state.md R21). -/

namespace Sys2Proof.Machine

/-- A flag as the byte VF holds: 1 or 0. -/
def flagByte (c : Bool) : Byte := if c then 1#8 else 0#8

/-- Carry of `a + b`: the true sum exceeds 255 (42_arith_logic.md R156). -/
def carry (a b : Byte) : Bool := decide (a.toNat + b.toNat > 255)

/-- No borrow in `a - b`: `a ≥ b` (42_arith_logic.md R157, R158). -/
def noBorrow (a b : Byte) : Bool := decide (b.toNat ≤ a.toNat)

/-- The bit a right shift moves out: bit 0 (42_arith_logic.md R159). -/
def lowBit (a : Byte) : Bool := a.getLsbD 0

/-- The bit a left shift moves out: bit 7 (42_arith_logic.md R160). -/
def highBit (a : Byte) : Bool := a.getLsbD 7

/-- Write VF as a flag. -/
def State.writeFlag (s : State) (c : Bool) : State := s.writeReg flagReg (flagByte c)

/-- Write a result to `V[x]`, then the flag to VF, last: with `x` = 0xF the flag is what VF holds afterwards
(10_state.md R21; decision D1, log 4). -/
def State.writeResultFlag (s : State) (x : Reg) (b : Byte) (c : Bool) : State := (s.writeReg x b).writeFlag c

end Sys2Proof.Machine
end

