-- ==== Sys2Proof/Machine/Operands.lean ====
section
/-! DEFINITION. What the operands of the instructions name: the target addresses, the font glyph, decimal digits,
the sprite's place, the key. -/

namespace Sys2Proof.Machine

/-- `zext_16(nnn)`, an absolute address (30_encoding.md R73). -/
def target (nnn : Addr12) : Word := nnn.zeroExtend 16

/-- `zext_16(V[r])` (00_scope.md R8). -/
def State.regWide (s : State) (r : Reg) : Word := (s.readReg r).zeroExtend 16

/-- The address of the glyph for the low nibble of a byte: `FONT_BASE + 5 × digit` (44_memory_ops.md R192). -/
def glyphAddress (b : Byte) : Word := BitVec.ofNat 16 fontBase + 5#16 * (b &&& 0x0F#8).zeroExtend 16

/-- The hundreds, tens and units of a byte (44_memory_ops.md R193). -/
def decimalDigits (b : Byte) : List Byte := [b / 100#8, (b / 10#8) % 10#8, b % 10#8]

/-- The key a register value names; above 15 there is none (45_timer_input.md R213). -/
def keyIndex (b : Byte) : Except Fault (Fin 16) :=
  if h : b.toNat < 16 then .ok ⟨b.toNat, h⟩ else .error (.keyIndexOutOfRange b)

/-- Whether key `k` is pressed (10_state.md R33). -/
def State.keyPressed (s : State) (k : Fin 16) : Bool := s.keys[k.val]

/-- The lowest pressed key, scanning 0 to 15 (45_timer_input.md R215). -/
def State.lowestKey (s : State) : Option (Fin 16) := (List.finRange 16).find? s.keyPressed

/-- The framebuffer row at `n` below the top, wrapped modulo 32 (43_display.md R180, R182). -/
def wrapRow (n : Nat) : Fin 32 := ⟨n % 32, Nat.mod_lt n (by decide)⟩

/-- The framebuffer column at `n` from the left, wrapped modulo 64 (43_display.md R180, R182). -/
def wrapColumn (n : Nat) : Fin 64 := ⟨n % 64, Nat.mod_lt n (by decide)⟩

/-- Bit `col` of a sprite row, the most significant bit first: `b[7 - col]` (43_display.md R180). -/
def spriteBit (b : Byte) (col : Nat) : Bool := b.getLsbD (7 - col)

/-- The byte for key `k`. -/
def keyByte (k : Fin 16) : Byte := BitVec.ofNat 8 k.val

end Sys2Proof.Machine
end

