-- ==== Sys2Proof/Machine/ArithLogic.lean ====
section
/-! DEFINITION. The arithmetic and logic instructions (42_arith_logic.md). Operands are read before any write, and a
flag is written last. -/

namespace Sys2Proof.Machine

/-- `LD Vx, kk` (R150). -/
def execLdImm (x : Reg) (kk : Byte) (s : State) : Host.Outcome State Fault Refusal := .next (s.writeReg x kk)

/-- `LD Vx, Vy` (R151). -/
def execLdReg (x y : Reg) (s : State) : Host.Outcome State Fault Refusal := .next (s.writeReg x (s.readReg y))

/-- `ADD Vx, kk`: modulo 256, no flag (R152). -/
def execAddImm (x : Reg) (kk : Byte) (s : State) : Host.Outcome State Fault Refusal :=
  .next (s.writeReg x (s.readReg x + kk))

/-- `OR Vx, Vy`: VF unchanged (R153). -/
def execOrReg (x y : Reg) (s : State) : Host.Outcome State Fault Refusal :=
  .next (s.writeReg x (s.readReg x ||| s.readReg y))

/-- `AND Vx, Vy`: VF unchanged (R154). -/
def execAndReg (x y : Reg) (s : State) : Host.Outcome State Fault Refusal :=
  .next (s.writeReg x (s.readReg x &&& s.readReg y))

/-- `XOR Vx, Vy`: VF unchanged (R155). -/
def execXorReg (x y : Reg) (s : State) : Host.Outcome State Fault Refusal :=
  .next (s.writeReg x (s.readReg x ^^^ s.readReg y))

/-- `ADD Vx, Vy`: modulo 256, VF = carry (R156). -/
def execAddReg (x y : Reg) (s : State) : Host.Outcome State Fault Refusal :=
  let a := s.readReg x
  let b := s.readReg y
  .next (s.writeResultFlag x (a + b) (carry a b))

/-- `SUB Vx, Vy`: Vx − Vy modulo 256, VF = no borrow (R157). -/
def execSubReg (x y : Reg) (s : State) : Host.Outcome State Fault Refusal :=
  let a := s.readReg x
  let b := s.readReg y
  .next (s.writeResultFlag x (a - b) (noBorrow a b))

/-- `SUBN Vx, Vy`: Vy − Vx modulo 256 into Vx, VF = no borrow (R158). -/
def execSubn (x y : Reg) (s : State) : Host.Outcome State Fault Refusal :=
  let a := s.readReg x
  let b := s.readReg y
  .next (s.writeResultFlag x (b - a) (noBorrow b a))

/-- `SHR Vx`: logical shift right by one, VF = old bit 0; Vy plays no part (R159). -/
def execShr (x _y : Reg) (s : State) : Host.Outcome State Fault Refusal :=
  let a := s.readReg x
  .next (s.writeResultFlag x (a >>> 1) (lowBit a))

/-- `SHL Vx`: shift left by one, VF = old bit 7; Vy plays no part (R160). -/
def execShl (x _y : Reg) (s : State) : Host.Outcome State Fault Refusal :=
  let a := s.readReg x
  .next (s.writeResultFlag x (a <<< 1) (highBit a))

/-- `RND Vx, kk`: one byte of the random source, masked (R161). The byte is free: the one numbered by `draws`, which
is then counted (log 1). -/
def execRnd (x : Reg) (kk : Byte) (s : State) : Host.Outcome State Fault Refusal :=
  .next ((s.writeReg x (Config.randomByte s.draws &&& kk)).countDraw)

end Sys2Proof.Machine
end

