-- ==== Sys2Proof/Machine/ControlFlow.lean ====
section
/-! DEFINITION. The control-flow instructions and the no-ops (41_control_flow.md; 40_step.md R105). `PC` already holds
the instruction's address + 2 (00_scope.md R10). -/

namespace Sys2Proof.Machine

/-- `CLS`: every pixel clear (R120). -/
def execCls (s : State) : Host.Outcome State Fault Refusal := .next (s.setFb Framebuffer.clear)

/-- `RET`: pop the call stack into `PC` (R121). -/
def execRet (s : State) : Host.Outcome State Fault Refusal := .next s.popPc

/-- `SYS nnn`: nothing (R129). -/
def execSys (_nnn : Addr12) (s : State) : Host.Outcome State Fault Refusal := .next s

/-- `JP nnn`: `PC <- nnn` (R122). -/
def execJp (nnn : Addr12) (s : State) : Host.Outcome State Fault Refusal := .next (s.setPc (target nnn))

/-- `CALL nnn`: push `PC`, then `PC <- nnn` (R123). -/
def execCall (nnn : Addr12) (s : State) : Host.Outcome State Fault Refusal := .next (s.pushPc.setPc (target nnn))

/-- `SE Vx, kk`: skip if equal (R124). -/
def execSeImm (x : Reg) (kk : Byte) (s : State) : Host.Outcome State Fault Refusal :=
  .next (s.skipIf (s.readReg x == kk))

/-- `SNE Vx, kk`: skip if different (R125). -/
def execSneImm (x : Reg) (kk : Byte) (s : State) : Host.Outcome State Fault Refusal :=
  .next (s.skipIf (s.readReg x != kk))

/-- `SE Vx, Vy`: skip if equal (R126). -/
def execSeReg (x y : Reg) (s : State) : Host.Outcome State Fault Refusal :=
  .next (s.skipIf (s.readReg x == s.readReg y))

/-- `SNE Vx, Vy`: skip if different (R127). -/
def execSneReg (x y : Reg) (s : State) : Host.Outcome State Fault Refusal :=
  .next (s.skipIf (s.readReg x != s.readReg y))

/-- `JP V0, nnn`: `PC <- (V0 + nnn) mod 2^16`, not masked to 12 bits (R128). -/
def execJpV0 (nnn : Addr12) (s : State) : Host.Outcome State Fault Refusal :=
  .next (s.setPc (s.regWide 0 + target nnn))

/-- An unrecognised opcode: nothing (40_step.md R105). -/
def execUnrecognised (_op : Word) (s : State) : Host.Outcome State Fault Refusal := .next s

end Sys2Proof.Machine
end

