-- ==== Sys2Proof/Machine/Display.lean ====
section
/-! DEFINITION. The sprite draw (43_display.md R180 to R183). -/

namespace Sys2Proof.Machine

/-- What a draw has done so far: the framebuffer, and whether a set sprite bit met a set pixel (43_display.md R181). -/
abbrev Drawing := Framebuffer × Bool

/-- One sprite bit: when it is set, note whether the pixel under it was set, then toggle it (43_display.md R180,
R181). -/
def drawBit (r : Fin 32) (c : Fin 64) (bit : Bool) (d : Drawing) : Drawing :=
  if bit then (d.1.toggle r c, d.2 || d.1.pixel r c) else d

/-- One sprite byte in row `r`, its eight bits from column `x0` to the right, the most significant first
(43_display.md R180). -/
def drawByte (x0 : Nat) (r : Fin 32) (b : Byte) (d : Drawing) : Drawing :=
  (List.range 8).foldl (fun e col => drawBit r (wrapColumn (x0 + col)) (spriteBit b col) e) d

/-- The sprite's bytes, one a row from row `y` down (43_display.md R180). -/
def drawSprite (x0 : Nat) : Nat → List Byte → Drawing → Drawing
  | _, [], d => d
  | y, b :: bs, d => drawSprite x0 (y + 1) bs (drawByte x0 (wrapRow y) b d)

/-- `DRW Vx, Vy, n`. The coordinates are read before VF is written; VF ends as the collision flag, 0 when `n` = 0
(R180, R181; decisions D12, D13, log 4). Memory and `I` are unchanged. The rows are all read before the first is
drawn, which nothing can tell apart from the spec's row by row: drawing writes no memory, and a fault discards what
was drawn (60_exceptions.md R233). -/
def execDrw (x y : Reg) (n : Nibble) (s : State) : Host.Outcome State Fault Refusal :=
  let x0 := (s.readReg x).toNat % 64
  let y0 := (s.readReg y).toNat % 32
  orRaise (loadBytes s.mem s.i.toNat n.toNat) fun bs =>
    let d := drawSprite x0 y0 bs (s.fb, false)
    (s.setFb d.1).writeFlag d.2

end Sys2Proof.Machine
end

