-- ==== Sys2Proof/Machine/MemoryOps.lean ====
section
/-! DEFINITION. The index-register, decimal and block-transfer instructions (44_memory_ops.md). None changes `I` as a
side effect (decision D3, log 4). -/

namespace Sys2Proof.Machine

/-- `LD I, nnn` (R190). -/
def execLdI (nnn : Addr12) (s : State) : Host.Outcome State Fault Refusal := .next (s.setI (target nnn))

/-- `ADD I, Vx`: modulo 2^16, VF unchanged (R191). -/
def execAddI (x : Reg) (s : State) : Host.Outcome State Fault Refusal := .next (s.setI (s.i + s.regWide x))

/-- `LD F, Vx`: `I` at the glyph of the low nibble of Vx (R192). -/
def execLdF (x : Reg) (s : State) : Host.Outcome State Fault Refusal := .next (s.setI (glyphAddress (s.readReg x)))

/-- `LD B, Vx`: the three decimal digits of Vx at `I`, `I + 1`, `I + 2` (R193). -/
def execLdB (x : Reg) (s : State) : Host.Outcome State Fault Refusal :=
  orRaise (storeBytes s.mem s.i.toNat (decimalDigits (s.readReg x))) s.setMem

/-- `LD [I], Vx`: V0 to Vx at `I` up (R194). -/
def execLdMemVx (x : Reg) (s : State) : Host.Outcome State Fault Refusal :=
  orRaise (storeBytes s.mem s.i.toNat (s.regsUpTo x)) s.setMem

/-- `LD Vx, [I]`: V0 to Vx from `I` up (R195). -/
def execLdVxMem (x : Reg) (s : State) : Host.Outcome State Fault Refusal :=
  orRaise (loadBytes s.mem s.i.toNat (x.val + 1)) s.writeRegsFrom0

end Sys2Proof.Machine
end

