-- ==== Sys2Proof/Machine/TimerInput.lean ====
section
/-! DEFINITION. The timer and keypad instructions (45_timer_input.md). The step's timer tick comes after them
(40_step.md R104). -/

namespace Sys2Proof.Machine

/-- `LD Vx, DT`: the value before this step's tick (R210). -/
def execLdVxDT (x : Reg) (s : State) : Host.Outcome State Fault Refusal := .next (s.writeReg x s.dt)

/-- `LD DT, Vx` (R211). -/
def execLdDTVx (x : Reg) (s : State) : Host.Outcome State Fault Refusal := .next (s.setDt (s.readReg x))

/-- `LD ST, Vx` (R212). -/
def execLdSTVx (x : Reg) (s : State) : Host.Outcome State Fault Refusal := .next (s.setSt (s.readReg x))

/-- `SKP Vx`: skip if the key Vx names is pressed; above 15 it names none and the instruction faults (R213). -/
def execSkp (x : Reg) (s : State) : Host.Outcome State Fault Refusal :=
  orRaise (keyIndex (s.readReg x)) fun k => s.skipIf (s.keyPressed k)

/-- `SKNP Vx`: skip if the key Vx names is not pressed; above 15 the instruction faults (R214). -/
def execSknp (x : Reg) (s : State) : Host.Outcome State Fault Refusal :=
  orRaise (keyIndex (s.readReg x)) fun k => s.skipIf (!s.keyPressed k)

/-- `LD Vx, K`: the lowest pressed key, or back to this instruction while none is pressed (R215). -/
def execLdVxK (x : Reg) (s : State) : Host.Outcome State Fault Refusal :=
  match s.lowestKey with
  | some k => .next (s.writeReg x (keyByte k))
  | none => .next s.rewindPc

end Sys2Proof.Machine
end

