-- ==== Sys2Proof/Machine/Step.lean ====
section
/-! DEFINITION. One step of the engine (40_step.md R100), and placing an instruction where it is fetched. -/

namespace Sys2Proof.Machine

/-- What an instruction's outcome makes of the step that began at `s`: the timers tick after an instruction that
completed (40_step.md R104); a fault it raised is taken at `s`, so that nothing the step did remains but the recorded
cause (60_exceptions.md R233). -/
def finishStep (s : State) : Host.Outcome State Fault Refusal → Host.Outcome State Fault Refusal
  | .next t => .next t.tickTimers
  | .fault c => .next (s.takeFault c)
  | .refused r => .refused r

/-- One `step()` (40_step.md R100): with a fault recorded it answers that fault and changes nothing (60_exceptions.md
R234); else fetch, advance `PC`, decode, execute, tick. A step that raises a fault answers the NEXT state, in which
the fault is recorded and all else is as before (R233); that `step()` returned an error then is read from that
field, and `Ports.stepPort` gives state and result together (log 5). -/
def step (s : State) : Host.Outcome State Fault Refusal :=
  match s.fault with
  | some c => .fault c
  | none =>
    match fetch s with
    | .error c => .next (s.takeFault c)
    | .ok op => finishStep s (exec (decodeWord op) s.advancePc)

/-- `s` with an instruction of spec/opcode_table.json stored where `step` fetches next: its bytes at `PC` and
`PC + 1`, nothing else changed. It stands for the host's `load_image` (70_reset_and_hazards.md R262; log 8). -/
def State.withFetchWord (s : State) (nbits w : Nat) : State := s.placeOpcode (tableOpcode nbits w)

end Sys2Proof.Machine
end

