-- ==== Sys2Proof/Machine/Ports.lean ====
section
/-! DEFINITION. The host's ports (60_exceptions.md R246; 70_reset_and_hazards.md R260 to R264): atomic transactions,
never during a step. `set_keys` and `load_image` are the host's; the engine's step never calls them. -/

namespace Sys2Proof.Machine

/-- `new()` (70_reset_and_hazards.md R260). It makes a fresh engine; an existing one is never reset (R261). -/
def newEngine : State := State.reset

/-- Why a load fails (70_reset_and_hazards.md R262). It is not a fault (R263). -/
inductive LoadError where
  /-- answered by `loadImage` when the image would end past 4096; memory is unchanged; safe -/
  | loadOutOfBounds
deriving DecidableEq, Repr

/-- `load_image(bytes, offset)`: copies the bytes into memory, or fails and copies none; nothing but memory changes
(70_reset_and_hazards.md R262). -/
def loadImage (bytes : List Byte) (offset : Nat) (s : State) : Except LoadError State :=
  if offset + bytes.length > Config.memSize then .error .loadOutOfBounds
  else .ok (s.setMem (Memory.writeAll s.mem offset bytes))

/-- `set_keys(k)`: replaces the whole keypad snapshot (60_exceptions.md R247). -/
def setKeys (k : Vector Bool 16) (s : State) : State := s.setKeys k

/-- `display()` (60_exceptions.md R248). -/
def display (s : State) : Framebuffer := s.fb

/-- `delay_timer()` (60_exceptions.md R249). -/
def delayTimer (s : State) : Byte := s.dt

/-- `sound_timer()` (60_exceptions.md R249). -/
def soundTimer (s : State) : Byte := s.st

/-- What `step()` returns (40_step.md R107). -/
inductive StepResult where
  | ok
  | err (c : Fault)
  /-- the instruction has no meaning; no instruction of this model is refused -/
  | unmodelled (r : Refusal)
deriving DecidableEq, Repr

/-- The result `step()` returns for a step that left the fault status `f`. -/
def StepResult.ofFault : Option Fault → StepResult
  | none => .ok
  | some c => .err c

/-- `step()` as the host sees it: the state after it and its result (40_step.md R100, R107; 60_exceptions.md R233,
R234). -/
def stepPort (s : State) : State × StepResult :=
  match step s with
  | .next t => (t, StepResult.ofFault t.fault)
  | .fault c => (s, .err c)
  | .refused r => (s, .unmodelled r)

/-- A host transaction on an existing engine (60_exceptions.md R246). -/
inductive Transaction where
  | loadImage (bytes : List Byte) (offset : Nat)
  | setKeys (k : Vector Bool 16)
  | step
  | display
  | delayTimer
  | soundTimer
deriving DecidableEq, Repr

/-- What a transaction returns to the host (60_exceptions.md R246). -/
inductive Reply where
  | nothing
  | loaded
  | loadFailed (e : LoadError)
  | stepped (r : StepResult)
  | pixels (fb : Framebuffer)
  | timer (b : Byte)
deriving DecidableEq, Repr

/-- One transaction: the state after it and the reply. -/
def transact (s : State) : Transaction → State × Reply
  | .loadImage bytes offset =>
    match loadImage bytes offset s with
    | .ok t => (t, .loaded)
    | .error e => (s, .loadFailed e)
  | .setKeys k => (setKeys k s, .nothing)
  | .step => ((stepPort s).1, .stepped (stepPort s).2)
  | .display => (s, .pixels (display s))
  | .delayTimer => (s, .timer (delayTimer s))
  | .soundTimer => (s, .timer (soundTimer s))

/-- A run: a finite sequence of host transactions (60_exceptions.md R253), and the state it ends in. -/
def runHost (s : State) : List Transaction → State
  | [] => s
  | tr :: trs => runHost (transact s tr).1 trs

end Sys2Proof.Machine
end

