-- ==== Sys2Proof/Safety.lean ====
section
/-! DEFINITION. The terms claims use: what a step runs, what completes, a safe run, the invariant of the engine, and
what a change leaves alone. -/

namespace Sys2Proof.Machine

/-! ## Steps and runs -/

/-- A fetch is possible: no fault recorded, and both bytes inside memory (40_step.md R100, R101). -/
def State.canFetch (s : State) : Prop := s.fault = none ∧ s.pc.toNat ≤ 0xFFE

/-- The bytes at `PC` and `PC + 1` are those of instruction `i`, and a step would run it. -/
def runs (s : State) (i : Instr) : Prop :=
  s.canFetch ∧ decodeBytes [Memory.read s.mem s.pc.toNat, Memory.read s.mem (s.pc.toNat + 1)] = .ok (i, [])

/-- The step from `s` returns `Ok` and leaves `t` (40_step.md R107). -/
def completes (s t : State) : Prop := step s = .next t ∧ t.fault = none

/-- The state `PC` is at while an instruction runs (00_scope.md R10). -/
def State.atNext (s : State) : State := s.setPc (s.pc + 2#16)

/-- A safe run: `k` steps, each returning `Ok`, from `s` to `t`. -/
def safeRun : Nat → State → State → Prop
  | 0, s, t => t = s
  | k + 1, s, t => ∃ u, completes s u ∧ safeRun k u t

/-- The state an outcome goes on to, else `s`. -/
def nextOr (s : State) : Host.Outcome State Fault Refusal → State
  | .next t => t
  | .fault _ => s
  | .refused _ => s

/-- The calls made at the given return addresses, one inside the other, all to `nnn` (41_control_flow.md R123). -/
def callAll (nnn : Addr12) : State → List Word → State
  | s, [] => s
  | s, ra :: ras => callAll nnn (nextOr s (exec (.call nnn) (s.setPc ra))) ras

/-- `k` returns in a row (41_control_flow.md R121). -/
def returnMany : Nat → State → State
  | 0, s => s
  | k + 1, s => returnMany k (nextOr s (exec .ret s))

/-! ## Encodings, by the number an opcode is (30_encoding.md R71, R72) -/

/-- Every opcode of family `f` is `mk nnn`, `nnn` its low 12 bits. -/
def opcodesNNN (f : Nat) (mk : Addr12 → Instr) : Prop :=
  ∀ op : Word, op.toNat / 4096 = f → ∃ nnn : Addr12, decodeWord op = mk nnn ∧ nnn.toNat = op.toNat % 4096

/-- Every opcode of family `f` is `mk x kk`, `x` its bits 11 to 8 and `kk` its low byte. -/
def opcodesXKK (f : Nat) (mk : Reg → Byte → Instr) : Prop :=
  ∀ op : Word, op.toNat / 4096 = f →
    ∃ (x : Reg) (kk : Byte), decodeWord op = mk x kk ∧ x.val = op.toNat / 256 % 16 ∧ kk.toNat = op.toNat % 256

/-- Every opcode of family `f` with low nibble `n` is `mk x y`, `x` its bits 11 to 8 and `y` its bits 7 to 4. -/
def opcodesXYS (f n : Nat) (mk : Reg → Reg → Instr) : Prop :=
  ∀ op : Word, op.toNat / 4096 = f → op.toNat % 16 = n →
    ∃ x y : Reg, decodeWord op = mk x y ∧ x.val = op.toNat / 256 % 16 ∧ y.val = op.toNat / 16 % 16

/-- Every opcode of family `f` with low byte `kk` is `mk x`, `x` its bits 11 to 8. -/
def opcodesXSS (f kk : Nat) (mk : Reg → Instr) : Prop :=
  ∀ op : Word, op.toNat / 4096 = f → op.toNat % 256 = kk →
    ∃ x : Reg, decodeWord op = mk x ∧ x.val = op.toNat / 256 % 16

/-! ## The invariant -/

/-- A recorded fault says what is wrong with the state: the `PC` no opcode can be fetched at, the lowest address out
of range from `I` up, or a register's value that is no key index (60_exceptions.md R230, R235). -/
def faultTruthful (s : State) : Prop :=
  match s.fault with
  | none => True
  | some (.fetchOutOfRange p) => p = s.pc ∧ 0xFFE < p.toNat
  | some (.memOutOfRange a) => a = max s.i.toNat 0x1000
  | some (.keyIndexOutOfRange b) => 15 < b.toNat ∧ ∃ r, s.readReg r = b

/-- What every state a run can reach meets: memory is in canonical form; `PC` is at most 0x10FE, the highest target
of `JP V0` (41_control_flow.md R128); every return address is at most 0x1000 (40_step.md R102; decision D21); and a
recorded fault is truthful. -/
def Inv (s : State) : Prop :=
  Memory.wf s.mem = true ∧ s.pc.toNat ≤ 0x10FE ∧ (∀ p : Fin 16, s.stack[p.val].toNat ≤ 0x1000) ∧ faultTruthful s

/-! ## What a change leaves alone -/

/-- The parts of the state other than the general registers. -/
inductive Part where
  | index | pc | callStack | delayTimer | soundTimer | memory | display | keypad | faultStatus | draws
deriving DecidableEq, Repr

/-- The part reads the same before and after: memory byte by byte, the display pixel by pixel, the call stack with its
pointer. -/
def Part.same (s t : State) : Part → Prop
  | .index => t.i = s.i
  | .pc => t.pc = s.pc
  | .callStack => t.sp = s.sp ∧ ∀ p : Fin 16, t.stack[p.val] = s.stack[p.val]
  | .delayTimer => t.dt = s.dt
  | .soundTimer => t.st = s.st
  | .memory => ∀ a, Memory.read t.mem a = Memory.read s.mem a
  | .display => ∀ r c, Framebuffer.pixel t.fb r c = Framebuffer.pixel s.fb r c
  | .keypad => ∀ k, t.keyPressed k = s.keyPressed k
  | .faultStatus => t.fault = s.fault
  | .draws => t.draws = s.draws

/-- From `s` to `t` no register changes outside `rs`, and no other part outside `ps`. -/
def changesOnly (rs : List Reg) (ps : List Part) (s t : State) : Prop :=
  (∀ r, r ∉ rs → t.readReg r = s.readReg r) ∧ ∀ p, p ∉ ps → p.same s t

/-- Every byte outside the `n` bytes from `a` up reads as before. -/
def sameMemoryOutside (a n : Nat) (s t : State) : Prop :=
  ∀ b, b < a ∨ a + n ≤ b → Memory.read t.mem b = Memory.read s.mem b

/-- The registers an instruction may write: its destination, and VF for the six that write a flag (10_state.md R21);
`LD Vx, [I]` writes V0 to Vx (44_memory_ops.md R195). -/
def writtenRegs : Instr → List Reg
  | .cls => []
  | .ret => []
  | .sys _ => []
  | .jp _ => []
  | .call _ => []
  | .seImm _ _ => []
  | .sneImm _ _ => []
  | .seReg _ _ => []
  | .ldImm x _ => [x]
  | .addImm x _ => [x]
  | .ldReg x _ => [x]
  | .orReg x _ => [x]
  | .andReg x _ => [x]
  | .xorReg x _ => [x]
  | .addReg x _ => [x, flagReg]
  | .subReg x _ => [x, flagReg]
  | .shr x _ => [x, flagReg]
  | .subn x _ => [x, flagReg]
  | .shl x _ => [x, flagReg]
  | .sneReg _ _ => []
  | .ldI _ => []
  | .jpV0 _ => []
  | .rnd x _ => [x]
  | .drw _ _ _ => [flagReg]
  | .skp _ => []
  | .sknp _ => []
  | .ldVxDT x => [x]
  | .ldVxK x => [x]
  | .ldDTVx _ => []
  | .ldSTVx _ => []
  | .addI _ => []
  | .ldF _ => []
  | .ldB _ => []
  | .ldMemVx _ => []
  | .ldVxMem x => (List.finRange 16).filter (fun r => r.val ≤ x.val)
  | .unrecognised _ => []

/-- How many bytes an instruction stores at `I` and up (20_memory.md R51). -/
def storedBytes : Instr → Nat
  | .ldB _ => 3
  | .ldMemVx x => x.val + 1
  | _ => 0

/-- How many bytes an instruction reads or writes at `I` and up (20_memory.md R51). -/
def accessedBytes : Instr → Nat
  | .drw _ _ n => n.toNat
  | .ldB _ => 3
  | .ldMemVx x => x.val + 1
  | .ldVxMem x => x.val + 1
  | _ => 0

/-! ## Sprites -/

/-- Pixel `(r, c)` lies under a set bit of the sprite of `n` rows at `I`, drawn at `(V[x], V[y])`: some row and column
of the sprite, bit set, wrap to it (43_display.md R180, R183). -/
def spriteCovers (s : State) (x y : Reg) (n : Nibble) (r : Fin 32) (c : Fin 64) : Prop :=
  ∃ row col, row < n.toNat ∧ col < 8 ∧
    (Memory.read s.mem (s.i.toNat + row)).getLsbD (7 - col) = true ∧
    r.val = ((s.readReg y).toNat % 32 + row) % 32 ∧ c.val = ((s.readReg x).toNat % 64 + col) % 64

end Sys2Proof.Machine
end

