-- ==== Sys2Proof/Certificates/Slice0/Obligations.lean ====
section
/-! DEFINITION. The statements for the provers. A docstring names the rule of spec/ a statement formalises. Where a
clause rests on a decision D<n> of 92_eei_decisions.md (the spec's own choice) or on an entry of the assumption log,
the docstring says so. -/

open Sys2Proof Sys2Proof.Machine

/-! ## Encoding (30_encoding.md) -/

/-- Decoding an encoded well-formed instruction gives it back: every row of R75, every operand value. The opcode
values and masks are the spec's choice (D9, D25; log 4). -/
def Obligations.DecodeUndoesEncode : Prop :=
  ∀ i : Instr, i.wellFormed = true → decodeWord (encode i) = i

/-- Every 16-bit value decodes to a well-formed instruction that encodes to it again. Decoding is total (R74; opcode
values and masks D25, D9). That it drops no bit is the model's choice to keep the bits an encoding ignores (log 7):
the spec only says that they name the same instruction (R79). -/
def Obligations.EncodeUndoesDecode : Prop :=
  ∀ op : Word, (decodeWord op).wellFormed = true ∧ encode (decodeWord op) = op

/-- The opcodes that are no instruction are exactly R77's list (strict masks: D9). -/
def Obligations.UnrecognisedOpcodesAreThoseListed : Prop :=
  ∀ op : Word, decodeWord op = .unrecognised op ↔
    (op.toNat / 4096 = 0x5 ∧ op.toNat % 16 ≠ 0) ∨
    (op.toNat / 4096 = 0x8 ∧ op.toNat % 16 ∈ [0x8, 0x9, 0xA, 0xB, 0xC, 0xD, 0xF]) ∨
    (op.toNat / 4096 = 0x9 ∧ op.toNat % 16 ≠ 0) ∨
    (op.toNat / 4096 = 0xE ∧ op.toNat % 256 ∉ [0x9E, 0xA1]) ∨
    (op.toNat / 4096 = 0xF ∧ op.toNat % 256 ∉ [0x07, 0x0A, 0x15, 0x18, 0x1E, 0x29, 0x33, 0x55, 0x65])

/-- Two rows of the opcode map select one opcode only where one is `CLS` or `RET` (rows 1, 2) and the other `SYS`
(row 3): the priority order matters nowhere else among the instruction rows (R74, with the masks of D9). -/
def Obligations.RowsOverlapOnlyAtSys : Prop :=
  ∀ (j k : Nat) (r q : OpcodeRow) (op : Word), j < k → opcodeTable[j]? = some r → opcodeTable[k]? = some q →
    r.selects op = true → q.selects op = true → j ≤ 1 ∧ k = 2

/-- The encodings the source shows (R76): `0x6005`, `0x6103`, `0x8014`, and what they show of all of `6xkk` and
`8xy4`. -/
def Obligations.SourceShownEncodingsDecode : Prop :=
  decodeWord 0x6005#16 = .ldImm 0 0x05#8 ∧ decodeWord 0x6103#16 = .ldImm 1 0x03#8 ∧
    decodeWord 0x8014#16 = .addReg 0 1 ∧ opcodesXKK 0x6 .ldImm ∧ opcodesXYS 0x8 0x4 .addReg

/-- One word of each family, written out from R75 (opcode values D25; masks D9). -/
def Obligations.WrittenOutWordsDecode : Prop :=
  decodeWord 0x00EE#16 = .ret ∧ decodeWord 0x2400#16 = .call 0x400#12 ∧ decodeWord 0x3142#16 = .seImm 1 0x42#8 ∧
    decodeWord 0x8AB7#16 = .subn 10 11 ∧ decodeWord 0xD125#16 = .drw 1 2 5#4 ∧ decodeWord 0xF255#16 = .ldMemVx 2 ∧
    decodeWord 0xE5A1#16 = .sknp 5 ∧ decodeWord 0xF315#16 = .ldDTVx 3 ∧ decodeWord 0xFFFF#16 = .unrecognised 0xFFFF#16

/-! ## Fetch and step (40_step.md) -/

/-- The fetch forms a big-endian opcode from two bytes at any `PC` up to 0xFFE, and above that faults with the `PC`
(R101; 20_memory.md R53, R54; the fault is D6). -/
def Obligations.FetchIsBigEndianOrFaults : Prop :=
  ∀ s : State,
    (s.pc.toNat ≤ 0xFFE → ∃ op, fetch s = .ok op ∧
      op.toNat = 256 * (Memory.read s.mem s.pc.toNat).toNat + (Memory.read s.mem (s.pc.toNat + 1)).toNat) ∧
    (0xFFE < s.pc.toNat → fetch s = .error (.fetchOutOfRange s.pc) ∧
      (s.fault = none → step s = .next (s.setFault (some (.fetchOutOfRange s.pc)))))

/-- A step runs the decoded instruction: with `i` at `PC`, `step` is `exec i` at `PC` + 2, then the timer tick; a
fault it raises is recorded in the state the step began at (R100, R102, R103; 60_exceptions.md R233: D14; that the
step then answers a next state is log 5). -/
def Obligations.StepRunsDecodedInstruction : Prop :=
  ∀ (s : State) (i : Instr), runs s i →
    (∀ t, exec i (s.setPc (s.pc + 2#16)) = .next t → step s = .next t.tickTimers) ∧
    (∀ c, exec i (s.setPc (s.pc + 2#16)) = .fault c → step s = .next (s.setFault (some c)))

/-- An opcode placed by `withFetchWord` is what the next step runs, and placing it changes only its two bytes (the
model's stand-in for a load, log 8). -/
def Obligations.PlacedOpcodeRunsNext : Prop :=
  ∀ (s : State) (w : Nat), s.canFetch → Memory.wf s.mem = true → w < 65536 →
    runs (s.withFetchWord 16 w) (decodeWord (BitVec.ofNat 16 w)) ∧ changesOnly [] [.memory] s (s.withFetchWord 16 w) ∧
      sameMemoryOutside s.pc.toNat 2 s (s.withFetchWord 16 w)

/-- The timer tick (R104): after the instruction, once in every step that completes, each timer by one and not below
0, a value just written included; a step that faults does not tick. -/
def Obligations.TimersTickOncePerCompletedStep : Prop :=
  (∀ (s t : State) (i : Instr), runs s i → completes s t →
    t.dt.toNat = (match i with | .ldDTVx x => s.readReg x | _ => s.dt).toNat - 1 ∧
    t.st.toNat = (match i with | .ldSTVx x => s.readReg x | _ => s.st).toNat - 1) ∧
  (∀ (s t : State) (c : Fault), s.fault = none → step s = .next t → t.fault = some c → t.dt = s.dt ∧ t.st = s.st)

/-- Where each instruction leaves `PC` (R102): past itself, unless it is one that writes `PC`. `RET` at `SP` = 0 pops
`stack[15]`, the spec's own choice (D8, log 4), and so is `JP V0` without a mask (D15) and every opcode value but two
(D25). Of `SKP` and `SKNP` it only says that they end at one of two addresses; KeySkipsTestSnapshot says which. -/
def Obligations.NextPcOfEveryInstruction : Prop :=
  ∀ (s t : State) (i : Instr), runs s i → completes s t →
    match i with
    | .ret => t.pc = s.stack[(s.sp - 1).val]
    | .jp nnn => t.pc.toNat = nnn.toNat
    | .call nnn => t.pc.toNat = nnn.toNat
    | .jpV0 nnn => t.pc.toNat = (s.readReg 0).toNat + nnn.toNat
    | .seImm x kk => t.pc = if s.readReg x = kk then s.pc + 4#16 else s.pc + 2#16
    | .sneImm x kk => t.pc = if s.readReg x = kk then s.pc + 2#16 else s.pc + 4#16
    | .seReg x y => t.pc = if s.readReg x = s.readReg y then s.pc + 4#16 else s.pc + 2#16
    | .sneReg x y => t.pc = if s.readReg x = s.readReg y then s.pc + 2#16 else s.pc + 4#16
    | .skp _ => t.pc = s.pc + 2#16 ∨ t.pc = s.pc + 4#16
    | .sknp _ => t.pc = s.pc + 2#16 ∨ t.pc = s.pc + 4#16
    | .ldVxK _ => t.pc = if ∃ k, s.keyPressed k = true then s.pc + 2#16 else s.pc
    | _ => t.pc = s.pc + 2#16

/-- A step is always answered, and no instruction is refused: with no fault recorded every state has a next one
(R107, R108; 30_encoding.md R77; that the raising step too answers a next state is log 5). -/
def Obligations.EveryStepHasNextState : Prop :=
  (∀ s : State, s.fault = none → ∃ t, step s = .next t) ∧ (∀ (i : Instr) (s : State) (r : Refusal), exec i s ≠ .refused r)

/-! ## Faults (60_exceptions.md; every clause rests on D5, D6, D7, D14 or D24, the spec's own choices) -/

/-- Exactly when an instruction faults, and with what: a block access that reaches above 0xFFF, with the lowest such
address; a key index above 15. No opcode faults by itself (R230, R231, R235). -/
def Obligations.FaultsExactlyWhenOutOfRange : Prop :=
  ∀ (s t : State) (i : Instr), runs s i → step s = .next t → ∀ c : Fault, t.fault = some c ↔
    (0 < accessedBytes i ∧ 0x1000 < s.i.toNat + accessedBytes i ∧ c = .memOutOfRange (max s.i.toNat 0x1000)) ∨
    (∃ x, (i = .skp x ∨ i = .sknp x) ∧ 15 < (s.readReg x).toNat ∧ c = .keyIndexOutOfRange (s.readReg x))

/-- Faults are precise: the step that raises one changes nothing but the fault status, and `step()` returns the cause
(R233). -/
def Obligations.FaultingStepChangesOnlyFaultStatus : Prop :=
  ∀ (s t : State) (c : Fault), s.fault = none → step s = .next t → t.fault = some c →
    t = s.setFault (some c) ∧ stepPort s = (t, .err c)

/-- With a fault recorded, `step()` returns it and changes nothing, and nothing the host does revives the engine: only
memory and the keypad can change, and `step()` returns the first fault for ever (R234, R253). -/
def Obligations.RecordedFaultIsAnsweredForEver : Prop :=
  ∀ (s : State) (c : Fault), s.fault = some c → step s = .fault c ∧ stepPort s = (s, .err c) ∧
    ∀ trs : List Transaction, changesOnly [] [.memory, .keypad] s (runHost s trs) ∧
      (stepPort (runHost s trs)).2 = .err c

/-! ## Invariants -/

/-- Reset meets the invariant (70_reset_and_hazards.md R260; the canonical form is log 3). -/
def Obligations.ResetMeetsInvariant : Prop := Inv State.reset

/-- Every step keeps the invariant: canonical memory, `PC` at most 0x10FE, return addresses at most 0x1000, a
truthful fault (20_memory.md R56; R102; 41_control_flow.md R128; 60_exceptions.md R235; D5 to D8, D14, D15, D21, D24;
log 3). -/
def Obligations.StepKeepsInvariant : Prop :=
  ∀ s t : State, Inv s → step s = .next t → Inv t

/-- Every run of host transactions keeps the invariant (60_exceptions.md R246, R253;
atomic transactions: D18; `load_image`: D19). -/
def Obligations.HostRunKeepsInvariant : Prop :=
  ∀ (s : State) (trs : List Transaction), Inv s → Inv (runHost s trs)

/-- Equal memories are equal data: two canonical memories that read the same everywhere are the same list (the
model's form of memory, log 3). -/
def Obligations.CanonicalMemoryIsUnique : Prop :=
  ∀ m m' : Memory, Memory.wf m = true → Memory.wf m' = true → (∀ a, Memory.read m a = Memory.read m' a) → m = m'

/-! ## What a step leaves alone: the whole-machine rules -/

/-- A step writes no register but the instruction's own: its destination, VF for the six that write a flag
(10_state.md R20, R21; 44_memory_ops.md R195; that `OR`, `AND`, `XOR` write none: D2). -/
def Obligations.StepWritesOnlyItsRegisters : Prop :=
  ∀ (s t : State) (i : Instr), runs s i → step s = .next t → ∀ r, r ∉ writtenRegs i → t.readReg r = s.readReg r

/-- A step stores nowhere but in the bytes `LD B, Vx` and `LD [I], Vx` store at `I` (20_memory.md R51). -/
def Obligations.StepStoresOnlyAtIndex : Prop :=
  ∀ (s t : State) (i : Instr), runs s i → Memory.wf s.mem = true → step s = .next t →
    sameMemoryOutside s.i.toNat (storedBytes i) s t

/-- Only `CLS` and `DRW` change a pixel (10_state.md R32). -/
def Obligations.OnlyClsAndDrwChangePixels : Prop :=
  ∀ (s t : State) (i : Instr), runs s i → step s = .next t → i ≠ .cls → (∀ x y n, i ≠ .drw x y n) →
    ∀ r c, Framebuffer.pixel t.fb r c = Framebuffer.pixel s.fb r c

/-- Only `CALL` and `RET` touch the call stack and its pointer, only `LD I`, `ADD I` and `LD F` write `I`, no step
changes the keypad, and only `RND` takes a random byte (10_state.md R22, R24, R25, R33, R36; that the others leave
`I` alone is D3; the count of bytes taken is log 1). -/
def Obligations.PartsWrittenOnlyByTheirInstructions : Prop :=
  ∀ (s t : State) (i : Instr), runs s i → step s = .next t →
    (i ≠ .ret → (∀ nnn, i ≠ .call nnn) → Part.same s t .callStack) ∧
    ((∀ nnn, i ≠ .ldI nnn) → (∀ x, i ≠ .addI x) → (∀ x, i ≠ .ldF x) → Part.same s t .index) ∧
    Part.same s t .keypad ∧
    ((∀ x kk, i ≠ .rnd x kk) → Part.same s t .draws)

/-- No instruction reads the sound timer: two states that differ only in it step to states that differ only in it
(10_state.md R27; 60_exceptions.md R241). The two steps take the same random byte where they take one, as the same
scripted input (10_state.md R36), which is how the model links two runs (log 1). -/
def Obligations.SoundTimerIsNeverRead : Prop :=
  ∀ (s t : State) (b : Byte), step s = .next t → ∃ u, step (s.setSt b) = .next u ∧ u.setSt 0#8 = t.setSt 0#8

/-! ## Control flow (41_control_flow.md) -/

/-- `CLS` (R120; its opcode value is D25). -/
def Obligations.ClsClearsEveryPixel : Prop :=
  decodeWord 0x00E0#16 = .cls ∧
  ∀ s : State, ∃ t, exec .cls s = .next t ∧ (∀ r c, Framebuffer.pixel t.fb r c = false) ∧ changesOnly [] [.display] s t

/-- An unrecognised opcode (40_step.md R105): the step fetches, advances `PC` by 2, ticks the timers and changes
nothing else. -/
def Obligations.UnrecognisedOpcodeIsNoOp : Prop :=
  (∀ (op : Word) (s : State), exec (.unrecognised op) s = .next s) ∧
  (∀ (s : State) (op : Word), runs s (.unrecognised op) → ∃ t, step s = .next t ∧ t.pc = s.pc + 2#16 ∧
    t.dt.toNat = s.dt.toNat - 1 ∧ t.st.toNat = s.st.toNat - 1 ∧ changesOnly [] [.pc, .delayTimer, .soundTimer] s t)

/-- `SYS nnn` (R129, the spec's 35th handler: D10): any `0nnn` but `00E0` and `00EE`, and it does nothing. -/
def Obligations.SysIsNoOp : Prop :=
  (∀ op : Word, op.toNat / 4096 = 0 → op ≠ 0x00E0#16 → op ≠ 0x00EE#16 → ∃ nnn : Addr12,
    decodeWord op = .sys nnn ∧ nnn.toNat = op.toNat) ∧
  (∀ (nnn : Addr12) (s : State), exec (.sys nnn) s = .next s) ∧
  (∀ (s : State) (nnn : Addr12), runs s (.sys nnn) → ∃ t, step s = .next t ∧ t.pc = s.pc + 2#16 ∧
    t.dt.toNat = s.dt.toNat - 1 ∧ t.st.toNat = s.st.toNat - 1 ∧ changesOnly [] [.pc, .delayTimer, .soundTimer] s t)

/-- `JP nnn` (R122; opcode value D25): `PC` becomes `nnn`, odd or even; `nnn` = 0xFFF makes the next fetch fault (D6);
a jump to its own address repeats, each time a full step with a tick. -/
def Obligations.JumpSetsPc : Prop :=
  opcodesNNN 0x1 .jp ∧
  (∀ (nnn : Addr12) (s : State), ∃ t, exec (.jp nnn) s = .next t ∧ t.pc.toNat = nnn.toNat ∧ changesOnly [] [.pc] s t ∧
    (nnn = 0xFFF#12 → s.fault = none → step t = .next (t.setFault (some (.fetchOutOfRange 0xFFF#16))))) ∧
  (∀ (s : State) (nnn : Addr12), runs s (.jp nnn) → s.pc.toNat = nnn.toNat → ∃ t, step s = .next t ∧
    t.dt.toNat = s.dt.toNat - 1 ∧ t.st.toNat = s.st.toNat - 1 ∧ changesOnly [] [.delayTimer, .soundTimer] s t)

/-- `JP V0, nnn` (R128): `PC` becomes V0 + `nnn`, not masked (D15), and a target above 0xFFE makes the next fetch
fault (D6). -/
def Obligations.IndexedJumpAddsV0 : Prop :=
  ∀ (nnn : Addr12) (s : State), ∃ t, exec (.jpV0 nnn) s = .next t ∧
    t.pc.toNat = (s.readReg 0).toNat + nnn.toNat ∧ changesOnly [] [.pc] s t ∧
    (0xFFE < (s.readReg 0).toNat + nnn.toNat → s.fault = none →
      step t = .next (t.setFault (some (.fetchOutOfRange t.pc))))

/-- `CALL nnn` (R123): the address past the call goes to the slot at the pointer, the pointer goes up by one modulo
16 (wrap without error: D8), and `PC` becomes `nnn`. -/
def Obligations.CallPushesReturnAddress : Prop :=
  ∀ (nnn : Addr12) (s : State), ∃ t, exec (.call nnn) s = .next t ∧ t.pc.toNat = nnn.toNat ∧
    t.sp.val = (s.sp.val + 1) % 16 ∧ t.stack[s.sp.val] = s.pc ∧
    (∀ p : Fin 16, p ≠ s.sp → t.stack[p.val] = s.stack[p.val]) ∧ changesOnly [] [.pc, .callStack] s t

/-- `RET` (R121): the pointer goes down by one modulo 16 (wrap without error: D8), `PC` becomes the entry there, and
no entry changes. -/
def Obligations.RetPopsReturnAddress : Prop :=
  ∀ s : State, ∃ t, exec .ret s = .next t ∧ t.sp.val = (s.sp.val + 15) % 16 ∧ t.pc = s.stack[t.sp.val] ∧
    (∀ p : Fin 16, t.stack[p.val] = s.stack[p.val]) ∧ changesOnly [] [.pc, .callStack] s t

/-- After any number of nested calls, up to 16 returns in a row give the return addresses of the latest calls, the
most recent first; older ones were overwritten (R121, R123; D8). -/
def Obligations.ReturnsGiveLatestSixteenCalls : Prop :=
  ∀ (nnn : Addr12) (s : State) (ras : List Word) (k : Nat) (ra : Word), k < 16 → ras.reverse[k]? = some ra →
    (returnMany (k + 1) (callAll nnn s ras)).pc = ra

/-- `SE Vx, kk` and `SNE Vx, kk` (R124, R125; opcode values D25). `PC` holds the instruction's address + 2. -/
def Obligations.SkipsComparingImmediate : Prop :=
  opcodesXKK 0x3 .seImm ∧ opcodesXKK 0x4 .sneImm ∧
  ∀ (x : Reg) (kk : Byte) (s : State),
    (∃ t, exec (.seImm x kk) s = .next t ∧ changesOnly [] [.pc] s t ∧
      t.pc = if s.readReg x = kk then s.pc + 2#16 else s.pc) ∧
    (∃ t, exec (.sneImm x kk) s = .next t ∧ changesOnly [] [.pc] s t ∧
      t.pc = if s.readReg x = kk then s.pc else s.pc + 2#16)

/-- `SE Vx, Vy` and `SNE Vx, Vy` (R126, R127; opcode values D25); `5xyn` and `9xyn` with `n` ≠ 0 are the no-op
(D9). -/
def Obligations.SkipsComparingRegisters : Prop :=
  opcodesXYS 0x5 0 .seReg ∧ opcodesXYS 0x9 0 .sneReg ∧
  (∀ op : Word, (op.toNat / 4096 = 0x5 ∨ op.toNat / 4096 = 0x9) → op.toNat % 16 ≠ 0 → decodeWord op = .unrecognised op) ∧
  ∀ (x y : Reg) (s : State),
    (∃ t, exec (.seReg x y) s = .next t ∧ changesOnly [] [.pc] s t ∧
      t.pc = (if s.readReg x = s.readReg y then s.pc + 2#16 else s.pc) ∧ (x = y → t.pc = s.pc + 2#16)) ∧
    (∃ t, exec (.sneReg x y) s = .next t ∧ changesOnly [] [.pc] s t ∧
      t.pc = (if s.readReg x = s.readReg y then s.pc else s.pc + 2#16) ∧ (x = y → t.pc = s.pc))

/-! ## Arithmetic and logic (42_arith_logic.md) -/

/-- `LD Vx, kk` (R150): every `6xkk`, the encoding the source shows; `x` = 0xF writes VF. -/
def Obligations.LoadImmediateWritesRegister : Prop :=
  opcodesXKK 0x6 .ldImm ∧
  ∀ (x : Reg) (kk : Byte) (s : State), ∃ t, exec (.ldImm x kk) s = .next t ∧ t.readReg x = kk ∧ changesOnly [x] [] s t

/-- `LD Vx, Vy` and `ADD Vx, kk` (R151, R152): the value, the sum modulo 256, and no flag; `x` = 0xF is VF as an
ordinary register. The opcode values are D25. -/
def Obligations.CopyAndAddImmediateSetNoFlag : Prop :=
  opcodesXYS 0x8 0x0 .ldReg ∧ opcodesXKK 0x7 .addImm ∧
  ∀ (x y : Reg) (kk : Byte) (s : State),
    (∃ t, exec (.ldReg x y) s = .next t ∧ t.readReg x = s.readReg y ∧ changesOnly [x] [] s t) ∧
    (∃ t, exec (.addImm x kk) s = .next t ∧ (t.readReg x).toNat = ((s.readReg x).toNat + kk.toNat) % 256 ∧
      changesOnly [x] [] s t)

/-- `OR`, `AND`, `XOR` (R153, R154, R155), bit by bit, VF unchanged unless it is `x` (D2). -/
def Obligations.BitwiseOperationsPerBit : Prop :=
  ∀ (x y : Reg) (s : State),
    (∃ t, exec (.orReg x y) s = .next t ∧ changesOnly [x] [] s t ∧
      ∀ k, (t.readReg x).getLsbD k = ((s.readReg x).getLsbD k || (s.readReg y).getLsbD k)) ∧
    (∃ t, exec (.andReg x y) s = .next t ∧ changesOnly [x] [] s t ∧
      ∀ k, (t.readReg x).getLsbD k = ((s.readReg x).getLsbD k && (s.readReg y).getLsbD k)) ∧
    (∃ t, exec (.xorReg x y) s = .next t ∧ changesOnly [x] [] s t ∧
      ∀ k, (t.readReg x).getLsbD k = ((s.readReg x).getLsbD k ^^ (s.readReg y).getLsbD k))

/-- `ADD Vx, Vy` (R156): the sum modulo 256 in Vx and the carry in VF; with `x` = 0xF the carry (D1). -/
def Obligations.AddRegistersSetsCarry : Prop :=
  ∀ (x y : Reg) (s : State), ∃ t, exec (.addReg x y) s = .next t ∧
    (x ≠ flagReg → (t.readReg x).toNat = ((s.readReg x).toNat + (s.readReg y).toNat) % 256) ∧
    (t.readReg flagReg).toNat = (if 255 < (s.readReg x).toNat + (s.readReg y).toNat then 1 else 0) ∧
    changesOnly [x, flagReg] [] s t

/-- `SUB Vx, Vy` and `SUBN Vx, Vy` (R157, R158): the difference modulo 256 in Vx, and VF = 1 when no borrow is
needed; with `x` = 0xF the flag (D1). -/
def Obligations.SubtractionsSetNoBorrow : Prop :=
  ∀ (x y : Reg) (s : State),
    (∃ t, exec (.subReg x y) s = .next t ∧
      (x ≠ flagReg → (t.readReg x).toNat = ((s.readReg x).toNat + 256 - (s.readReg y).toNat) % 256) ∧
      (t.readReg flagReg).toNat = (if (s.readReg y).toNat ≤ (s.readReg x).toNat then 1 else 0) ∧
      changesOnly [x, flagReg] [] s t) ∧
    (∃ t, exec (.subn x y) s = .next t ∧
      (x ≠ flagReg → (t.readReg x).toNat = ((s.readReg y).toNat + 256 - (s.readReg x).toNat) % 256) ∧
      (t.readReg flagReg).toNat = (if (s.readReg x).toNat ≤ (s.readReg y).toNat then 1 else 0) ∧
      changesOnly [x, flagReg] [] s t)

/-- `SHR Vx` and `SHL Vx` (R159, R160): Vx moved by one bit, the bit moved out in VF, Vy without effect; with `x` =
0xF the flag (D1). -/
def Obligations.ShiftsMoveOneBit : Prop :=
  ∀ (x y : Reg) (s : State),
    (∃ t, exec (.shr x y) s = .next t ∧
      (x ≠ flagReg → (t.readReg x).toNat = (s.readReg x).toNat / 2) ∧
      (t.readReg flagReg).toNat = (s.readReg x).toNat % 2 ∧ changesOnly [x, flagReg] [] s t) ∧
    (∃ t, exec (.shl x y) s = .next t ∧
      (x ≠ flagReg → (t.readReg x).toNat = 2 * (s.readReg x).toNat % 256) ∧
      (t.readReg flagReg).toNat = (s.readReg x).toNat / 128 ∧ changesOnly [x, flagReg] [] s t)

/-- `RND Vx, kk` (R161; D16): one byte of the random source, masked. It says nothing of the byte (log 1): a bit that
is 0 in `kk` is 0, the other bits are the byte's, and one byte is taken. -/
def Obligations.RandomByteIsMasked : Prop :=
  ∀ (x : Reg) (kk : Byte) (s : State), ∃ t, exec (.rnd x kk) s = .next t ∧ changesOnly [x] [.draws] s t ∧
    t.draws = s.draws + 1 ∧
    ∀ k, (t.readReg x).getLsbD k = (kk.getLsbD k && (Config.randomByte s.draws).getLsbD k)

/-! ## Display (43_display.md) -/

/-- `DRW` (R180, R182, R183): every pixel under a set sprite bit is inverted, every other is as before, and nothing
else changes but VF (coordinates from before VF is written: D12; `n` = 0: D13). -/
def Obligations.DrawInvertsCoveredPixels : Prop :=
  ∀ (x y : Reg) (n : Nibble) (s : State), n = 0#4 ∨ s.i.toNat + n.toNat ≤ 0x1000 →
    ∃ t, exec (.drw x y n) s = .next t ∧ changesOnly [flagReg] [.display] s t ∧
      ∀ r c, (spriteCovers s x y n r c → Framebuffer.pixel t.fb r c = !Framebuffer.pixel s.fb r c) ∧
        (¬ spriteCovers s x y n r c → Framebuffer.pixel t.fb r c = Framebuffer.pixel s.fb r c)

/-- The collision flag (R181): 1 exactly when a set sprite bit met a set pixel anywhere in the draw, else 0
(the coordinates when `x` or `y` is 0xF: D12). -/
def Obligations.DrawReportsCollision : Prop :=
  ∀ (x y : Reg) (n : Nibble) (s t : State), exec (.drw x y n) s = .next t →
    ((∃ r c, spriteCovers s x y n r c ∧ Framebuffer.pixel s.fb r c = true) → t.readReg flagReg = 1#8) ∧
    ((∀ r c, spriteCovers s x y n r c → Framebuffer.pixel s.fb r c = false) → t.readReg flagReg = 0#8)

/-- Drawing a sprite twice restores every pixel, and the second draw reports a collision exactly when some covered
pixel was clear before the first (R181, R183; the covered pixels when `x` or `y` is 0xF, those at VF from before it is
cleared, are the spec's own choice: D12, log 4). `u` is any state that shows the first draw's picture and has the same
sprite and coordinates. -/
def Obligations.DrawTwiceRestoresPixels : Prop :=
  ∀ (x y : Reg) (n : Nibble) (s t u : State), exec (.drw x y n) s = .next t →
    u.fb = t.fb → u.mem = s.mem → u.i = s.i → u.readReg x = s.readReg x → u.readReg y = s.readReg y →
    ∃ w, exec (.drw x y n) u = .next w ∧ (∀ r c, Framebuffer.pixel w.fb r c = Framebuffer.pixel s.fb r c) ∧
      (w.readReg flagReg = 1#8 ↔ ∃ r c, spriteCovers s x y n r c ∧ Framebuffer.pixel s.fb r c = false)

/-! ## Memory operations (44_memory_ops.md) -/

/-- `LD I, nnn` and `LD F, Vx` (R190, R192; opcode values D25). -/
def Obligations.IndexLoadAndGlyphAddress : Prop :=
  opcodesNNN 0xA .ldI ∧ opcodesXSS 0xF 0x29 .ldF ∧
  (∀ (nnn : Addr12) (s : State), ∃ t, exec (.ldI nnn) s = .next t ∧ t.i.toNat = nnn.toNat ∧ changesOnly [] [.index] s t) ∧
  (∀ (x : Reg) (s : State), ∃ t, exec (.ldF x) s = .next t ∧
    t.i.toNat = 0x050 + 5 * ((s.readReg x).toNat % 16) ∧ changesOnly [] [.index] s t)

/-- `ADD I, Vx` (R191): modulo 2^16 (D4), VF unchanged. -/
def Obligations.AddToIndexWraps : Prop :=
  ∀ (x : Reg) (s : State), ∃ t, exec (.addI x) s = .next t ∧
    t.i.toNat = (s.i.toNat + (s.readReg x).toNat) % 65536 ∧ changesOnly [] [.index] s t

/-- `LD B, Vx` (R193): the decimal digits at `I`, `I + 1`, `I + 2` and nothing else; past 0xFFF it faults (D5). -/
def Obligations.DecimalDigitsAreStored : Prop :=
  ∀ (x : Reg) (s : State),
    (s.i.toNat + 2 ≤ 0xFFF → Memory.wf s.mem = true → ∃ t, exec (.ldB x) s = .next t ∧
      (Memory.read t.mem s.i.toNat).toNat = (s.readReg x).toNat / 100 ∧
      (Memory.read t.mem (s.i.toNat + 1)).toNat = (s.readReg x).toNat / 10 % 10 ∧
      (Memory.read t.mem (s.i.toNat + 2)).toNat = (s.readReg x).toNat % 10 ∧
      sameMemoryOutside s.i.toNat 3 s t ∧ changesOnly [] [.memory] s t) ∧
    (0xFFF < s.i.toNat + 2 → exec (.ldB x) s = .fault (.memOutOfRange (max s.i.toNat 0x1000)))

/-- `LD [I], Vx` (R194): V0 to Vx at `I` up and nothing else, `I` included (D3); past 0xFFF it faults (D5). -/
def Obligations.RegisterDumpStoresV0ToVx : Prop :=
  ∀ (x : Reg) (s : State),
    (s.i.toNat + x.val ≤ 0xFFF → Memory.wf s.mem = true → ∃ t, exec (.ldMemVx x) s = .next t ∧
      (∀ r : Reg, r.val ≤ x.val → Memory.read t.mem (s.i.toNat + r.val) = s.readReg r) ∧
      sameMemoryOutside s.i.toNat (x.val + 1) s t ∧ changesOnly [] [.memory] s t) ∧
    (0xFFF < s.i.toNat + x.val → exec (.ldMemVx x) s = .fault (.memOutOfRange (max s.i.toNat 0x1000)))

/-- `LD Vx, [I]` (R195): V0 to Vx from `I` up; the registers above, `I` (D3) and all else unchanged; past 0xFFF it
faults (D5). -/
def Obligations.RegisterLoadReadsV0ToVx : Prop :=
  ∀ (x : Reg) (s : State),
    (s.i.toNat + x.val ≤ 0xFFF → ∃ t, exec (.ldVxMem x) s = .next t ∧
      (∀ r : Reg, r.val ≤ x.val → t.readReg r = Memory.read s.mem (s.i.toNat + r.val)) ∧
      changesOnly ((List.finRange 16).filter fun r => r.val ≤ x.val) [] s t) ∧
    (0xFFF < s.i.toNat + x.val → exec (.ldVxMem x) s = .fault (.memOutOfRange (max s.i.toNat 0x1000)))

/-- A dump is read back by a load: `LD Vx, [I]`, at any state with the memory and the `I` that `LD [I], Vx` left,
gives V0 to Vx their dumped values (R194, R195; D3). -/
def Obligations.LoadReadsBackDump : Prop :=
  ∀ (x : Reg) (s t u : State), Memory.wf s.mem = true → exec (.ldMemVx x) s = .next t → u.mem = t.mem → u.i = t.i →
    ∃ w, exec (.ldVxMem x) u = .next w ∧ ∀ r : Reg, r.val ≤ x.val → w.readReg r = s.readReg r

/-- A store is seen by the next fetch (20_memory.md R61): an opcode dumped by `LD [I], Vx` at the address after it,
two or more registers, is the one the next step fetches. -/
def Obligations.StoredOpcodeIsFetchedNext : Prop :=
  ∀ (x : Reg) (s t : State), runs s (.ldMemVx x) → Memory.wf s.mem = true → 1 ≤ x.val →
    s.i.toNat = s.pc.toNat + 2 → completes s t →
    ∃ op, fetch t = .ok op ∧ op.toNat = 256 * (s.readReg 0).toNat + (s.readReg 1).toNat

/-! ## Timers and keypad (45_timer_input.md) -/

/-- `LD Vx, DT`, `LD DT, Vx` and `LD ST, Vx` (R210, R211, R212; opcode values D25): the value moved, and what the same step's tick makes
of it; the register gets `DT` from before the tick. -/
def Obligations.TimerTransfersAndSameStepTick : Prop :=
  opcodesXSS 0xF 0x07 .ldVxDT ∧ opcodesXSS 0xF 0x15 .ldDTVx ∧ opcodesXSS 0xF 0x18 .ldSTVx ∧
  (∀ (x : Reg) (s : State),
    (∃ t, exec (.ldVxDT x) s = .next t ∧ t.readReg x = s.dt ∧ changesOnly [x] [] s t) ∧
    (∃ t, exec (.ldDTVx x) s = .next t ∧ t.dt = s.readReg x ∧ changesOnly [] [.delayTimer] s t) ∧
    (∃ t, exec (.ldSTVx x) s = .next t ∧ t.st = s.readReg x ∧ changesOnly [] [.soundTimer] s t)) ∧
  (∀ (x : Reg) (s : State),
    (runs s (.ldVxDT x) → ∃ t, step s = .next t ∧ t.readReg x = s.dt ∧ t.dt.toNat = s.dt.toNat - 1) ∧
    (runs s (.ldDTVx x) → ∃ t, step s = .next t ∧ t.dt.toNat = (s.readReg x).toNat - 1) ∧
    (runs s (.ldSTVx x) → ∃ t, step s = .next t ∧ t.st.toNat = (s.readReg x).toNat - 1))

/-- `SKP Vx` and `SKNP Vx` (R213, R214): a skip by the level of the key Vx names; above 15 both fault (D7). -/
def Obligations.KeySkipsTestSnapshot : Prop :=
  ∀ (x : Reg) (s : State),
    (∀ k : Fin 16, (s.readReg x).toNat = k.val →
      (∃ t, exec (.skp x) s = .next t ∧ changesOnly [] [.pc] s t ∧
        t.pc = if s.keyPressed k = true then s.pc + 2#16 else s.pc) ∧
      (∃ t, exec (.sknp x) s = .next t ∧ changesOnly [] [.pc] s t ∧
        t.pc = if s.keyPressed k = true then s.pc else s.pc + 2#16)) ∧
    (15 < (s.readReg x).toNat → exec (.skp x) s = .fault (.keyIndexOutOfRange (s.readReg x)) ∧
      exec (.sknp x) s = .fault (.keyIndexOutOfRange (s.readReg x)))

/-- `LD Vx, K` (R215; opcode value D25): the lowest pressed key, by level; with none pressed, back to the instruction, so that the step
leaves `PC` as it was and only ticks the timers. -/
def Obligations.KeyWaitTakesLowestKeyOrRewinds : Prop :=
  opcodesXSS 0xF 0x0A .ldVxK ∧
  (∀ (x : Reg) (s : State) (k : Fin 16), s.keyPressed k = true → (∀ j, j < k → s.keyPressed j = false) →
    ∃ t, exec (.ldVxK x) s = .next t ∧ (t.readReg x).toNat = k.val ∧ changesOnly [x] [] s t) ∧
  (∀ (x : Reg) (s : State), (∀ k, s.keyPressed k = false) →
    (∃ t, exec (.ldVxK x) s = .next t ∧ t.pc = s.pc - 2#16 ∧ changesOnly [] [.pc] s t) ∧
    (runs s (.ldVxK x) → ∃ t, step s = .next t ∧ t.dt.toNat = s.dt.toNat - 1 ∧ t.st.toNat = s.st.toNat - 1 ∧
      changesOnly [] [.delayTimer, .soundTimer] s t))

/-- The run in which no key is ever pressed (60_exceptions.md R252): `LD Vx, K` polls for ever, every step completing
and only the timers moving, down to 0 (R215, R268). -/
def Obligations.KeyWaitPollsForAnyNumberOfSteps : Prop :=
  ∀ (k : Nat) (x : Reg) (s : State), runs s (.ldVxK x) → (∀ j, s.keyPressed j = false) →
    ∃ t, safeRun k s t ∧ t.dt.toNat = s.dt.toNat - k ∧ t.st.toNat = s.st.toNat - k ∧
      changesOnly [] [.delayTimer, .soundTimer] s t

/-! ## Host ports and reset (60_exceptions.md; 70_reset_and_hazards.md) -/

/-- `load_image` (70_reset_and_hazards.md R262, R263; details D19): past 4096 it fails and changes nothing; else the
bytes stand at the offset, every other byte and all else, the fault status included, as before. -/
def Obligations.LoadImageCopiesOrFails : Prop :=
  ∀ (s : State) (bytes : List Byte) (offset : Nat),
    (4096 < offset + bytes.length → transact s (.loadImage bytes offset) = (s, .loadFailed .loadOutOfBounds)) ∧
    (offset + bytes.length ≤ 4096 → Memory.wf s.mem = true →
      ∃ t, transact s (.loadImage bytes offset) = (t, .loaded) ∧
        (∀ (k : Nat) (b : Byte), bytes[k]? = some b → Memory.read t.mem (offset + k) = b) ∧
        sameMemoryOutside offset bytes.length s t ∧ changesOnly [] [.memory] s t)

/-- `set_keys` (60_exceptions.md R247; persistence D20) replaces the snapshot and nothing else, in any state. -/
def Obligations.SetKeysReplacesSnapshot : Prop :=
  ∀ (s : State) (k : Vector Bool 16), ∃ t, transact s (.setKeys k) = (t, .nothing) ∧
    (∀ j : Fin 16, t.keyPressed j = k[j.val]) ∧ changesOnly [] [.keypad] s t

/-- `display()`, `delay_timer()` and `sound_timer()` (60_exceptions.md R248, R249) return the framebuffer and the
timers and change nothing. -/
def Obligations.ReadPortsReturnAndChangeNothing : Prop :=
  ∀ s : State, transact s .display = (s, .pixels s.fb) ∧ transact s .delayTimer = (s, .timer s.dt) ∧
    transact s .soundTimer = (s, .timer s.st)

/-- The state `new()` constructs (70_reset_and_hazards.md R260), `FONT` being the model's parameter (log 2). -/
def Obligations.NewEngineIsReset : Prop :=
  newEngine = State.reset ∧ (∀ r, State.reset.readReg r = 0#8) ∧ State.reset.i = 0#16 ∧ State.reset.sp = 0 ∧
    (∀ p : Fin 16, State.reset.stack[p.val] = 0#16) ∧ State.reset.dt = 0#8 ∧ State.reset.st = 0#8 ∧
    (∀ r c, Framebuffer.pixel State.reset.fb r c = false) ∧ (∀ k, State.reset.keyPressed k = false) ∧
    State.reset.fault = none ∧ State.reset.pc = 0x200#16 ∧
    (∀ a, a < 0x050 ∨ 0x09F < a → Memory.read State.reset.mem a = 0#8) ∧ font.length = 80 ∧
    (∀ (k : Nat) (b : Byte), font[k]? = some b → Memory.read State.reset.mem (0x050 + k) = b)
end

