-- ==== Sys2Proof/Laws/Fields.lean ====
section
/-! SUPPORT. Opcodes and their fields as numbers, the fields of an opcode put together from fields, what each mask
keeps, and an opcode put together again from its own fields. -/

namespace Sys2Proof

/-! ## As numbers -/

theorem toNat_append_of {m n : Nat} (a : BitVec m) (b : BitVec n) : (a ++ b).toNat = a.toNat * 2 ^ n + b.toNat := by
  rw [BitVec.toNat_append, ← Nat.shiftLeft_add_eq_or_of_lt b.isLt, Nat.shiftLeft_eq]

theorem regBits_toNat (r : Reg) : (regBits r).toNat = r.val := Nat.mod_eq_of_lt r.isLt

theorem formNNN_toNat (f : Nibble) (nnn : Addr12) : (formNNN f nnn).toNat = f.toNat * 4096 + nnn.toNat :=
  toNat_append_of f nnn

theorem formXKK_toNat (f : Nibble) (x : Reg) (kk : Byte) :
    (formXKK f x kk).toNat = f.toNat * 4096 + x.val * 256 + kk.toNat := by
  have h : (formXKK f x kk).toNat = (f ++ regBits x ++ kk).toNat := rfl
  rw [h, toNat_append_of, toNat_append_of, regBits_toNat]
  omega

theorem formXYN_toNat (f : Nibble) (x y : Reg) (n : Nibble) :
    (formXYN f x y n).toNat = f.toNat * 4096 + x.val * 256 + y.val * 16 + n.toNat := by
  have h : (formXYN f x y n).toNat = (f ++ regBits x ++ regBits y ++ n).toNat := rfl
  rw [h, toNat_append_of, toNat_append_of, toNat_append_of, regBits_toNat, regBits_toNat]
  omega

theorem bytesWord_toNat (hi lo : Byte) : (bytesWord hi lo).toNat = hi.toNat * 256 + lo.toNat := toNat_append_of hi lo

theorem fieldF_toNat (op : Word) : (fieldF op).toNat = op.toNat / 4096 := by
  have := op.isLt
  simp only [fieldF, BitVec.extractLsb'_toNat, Nat.shiftRight_eq_div_pow]
  omega

theorem fieldX_val (op : Word) : (fieldX op).val = op.toNat / 256 % 16 := by
  simp only [fieldX, BitVec.extractLsb'_toNat, Nat.shiftRight_eq_div_pow]

theorem fieldY_val (op : Word) : (fieldY op).val = op.toNat / 16 % 16 := by
  simp only [fieldY, BitVec.extractLsb'_toNat, Nat.shiftRight_eq_div_pow]

theorem fieldN_toNat (op : Word) : (fieldN op).toNat = op.toNat % 16 := by
  simp only [fieldN, BitVec.extractLsb'_toNat, Nat.shiftRight_eq_div_pow]
  norm_num

theorem fieldKK_toNat (op : Word) : (fieldKK op).toNat = op.toNat % 256 := by
  simp only [fieldKK, BitVec.extractLsb'_toNat, Nat.shiftRight_eq_div_pow]
  norm_num

theorem fieldNNN_toNat (op : Word) : (fieldNNN op).toNat = op.toNat % 4096 := by
  simp only [fieldNNN, BitVec.extractLsb'_toNat, Nat.shiftRight_eq_div_pow]
  norm_num

/-! ## The fields of an opcode put together from fields (30_encoding.md R71, R72) -/

theorem fieldF_formNNN (f : Nibble) (nnn : Addr12) : fieldF (formNNN f nnn) = f := by
  have := f.isLt; have := nnn.isLt
  apply BitVec.eq_of_toNat_eq; rw [fieldF_toNat, formNNN_toNat]; omega

theorem fieldNNN_formNNN (f : Nibble) (nnn : Addr12) : fieldNNN (formNNN f nnn) = nnn := by
  have := f.isLt; have := nnn.isLt
  apply BitVec.eq_of_toNat_eq; rw [fieldNNN_toNat, formNNN_toNat]; omega

theorem fieldF_formXKK (f : Nibble) (x : Reg) (kk : Byte) : fieldF (formXKK f x kk) = f := by
  have := f.isLt; have := kk.isLt
  apply BitVec.eq_of_toNat_eq; rw [fieldF_toNat, formXKK_toNat]; omega

theorem fieldX_formXKK (f : Nibble) (x : Reg) (kk : Byte) : fieldX (formXKK f x kk) = x := by
  have := f.isLt; have := kk.isLt
  apply Fin.ext; rw [fieldX_val, formXKK_toNat]; omega

theorem fieldKK_formXKK (f : Nibble) (x : Reg) (kk : Byte) : fieldKK (formXKK f x kk) = kk := by
  have := f.isLt; have := kk.isLt
  apply BitVec.eq_of_toNat_eq; rw [fieldKK_toNat, formXKK_toNat]; omega

theorem fieldF_formXYN (f : Nibble) (x y : Reg) (n : Nibble) : fieldF (formXYN f x y n) = f := by
  have := f.isLt; have := n.isLt
  apply BitVec.eq_of_toNat_eq; rw [fieldF_toNat, formXYN_toNat]; omega

theorem fieldX_formXYN (f : Nibble) (x y : Reg) (n : Nibble) : fieldX (formXYN f x y n) = x := by
  have := f.isLt; have := n.isLt
  apply Fin.ext; rw [fieldX_val, formXYN_toNat]; omega

theorem fieldY_formXYN (f : Nibble) (x y : Reg) (n : Nibble) : fieldY (formXYN f x y n) = y := by
  have := f.isLt; have := n.isLt
  apply Fin.ext; rw [fieldY_val, formXYN_toNat]; omega

theorem fieldN_formXYN (f : Nibble) (x y : Reg) (n : Nibble) : fieldN (formXYN f x y n) = n := by
  have := f.isLt; have := n.isLt
  apply BitVec.eq_of_toNat_eq; rw [fieldN_toNat, formXYN_toNat]; omega

/-! ## An opcode put together again from its fields -/

theorem formNNN_fields (op : Word) : formNNN (fieldF op) (fieldNNN op) = op := by
  apply BitVec.eq_of_toNat_eq; rw [formNNN_toNat, fieldF_toNat, fieldNNN_toNat]; omega

theorem formXKK_fields (op : Word) : formXKK (fieldF op) (fieldX op) (fieldKK op) = op := by
  apply BitVec.eq_of_toNat_eq; rw [formXKK_toNat, fieldF_toNat, fieldX_val, fieldKK_toNat]; omega

theorem formXYN_fields (op : Word) : formXYN (fieldF op) (fieldX op) (fieldY op) (fieldN op) = op := by
  apply BitVec.eq_of_toNat_eq; rw [formXYN_toNat, fieldF_toNat, fieldX_val, fieldY_val, fieldN_toNat]; omega

/-! ## What a mask keeps (30_encoding.md R75) -/

theorem formNNN_getLsbD (f : Nibble) (nnn : Addr12) (k : Nat) :
    (formNNN f nnn).getLsbD k = if k < 12 then nnn.getLsbD k else f.getLsbD (k - 12) := by
  have h : (formNNN f nnn).getLsbD k = (f ++ nnn).getLsbD k := rfl
  rw [h, BitVec.getLsbD_append]

theorem formXKK_getLsbD (f : Nibble) (x : Reg) (kk : Byte) (k : Nat) : (formXKK f x kk).getLsbD k =
    if k < 8 then kk.getLsbD k else if k < 12 then (regBits x).getLsbD (k - 8) else f.getLsbD (k - 12) := by
  have h : (formXKK f x kk).getLsbD k = (f ++ regBits x ++ kk).getLsbD k := rfl
  rw [h, BitVec.getLsbD_append, BitVec.getLsbD_append]
  split
  · simp [*]
  · simp only [show (k - 8 < 4) = (k < 12) by apply propext; omega, show k - 8 - 4 = k - 12 by omega]

theorem formXYN_getLsbD (f : Nibble) (x y : Reg) (n : Nibble) (k : Nat) : (formXYN f x y n).getLsbD k =
    if k < 4 then n.getLsbD k else if k < 8 then (regBits y).getLsbD (k - 4)
    else if k < 12 then (regBits x).getLsbD (k - 8) else f.getLsbD (k - 12) := by
  have h : (formXYN f x y n).getLsbD k = (f ++ regBits x ++ regBits y ++ n).getLsbD k := rfl
  rw [h, BitVec.getLsbD_append, BitVec.getLsbD_append, BitVec.getLsbD_append]
  by_cases h4 : k < 4
  · simp [h4]
  · by_cases h8 : k < 8
    · simp [h4, h8, show k - 4 < 4 by omega]
    · by_cases h12 : k < 12
      · simp [h4, h8, h12, show ¬ (k - 4 < 4) by omega, show k - 8 < 4 by omega, show k - 4 - 4 = k - 8 by omega]
      · simp [h4, h8, h12, show ¬ (k - 4 < 4) by omega, show ¬ (k - 4 - 4 < 4) by omega,
          show k - 4 - 4 - 4 = k - 12 by omega]

/-- The mask `F000` keeps the family. -/
theorem mask_F000 (op : Word) : op &&& 0xF000#16 = formNNN (fieldF op) 0#12 := by
  apply BitVec.eq_of_getLsbD_eq
  intro k hk
  rw [formNNN_getLsbD, BitVec.getLsbD_and, fieldF, BitVec.getLsbD_extractLsb']
  interval_cases k <;> simp

/-- The mask `F00F` keeps the family and the low nibble. -/
theorem mask_F00F (op : Word) : op &&& 0xF00F#16 = formXYN (fieldF op) 0 0 (fieldN op) := by
  apply BitVec.eq_of_getLsbD_eq
  intro k hk
  rw [formXYN_getLsbD, BitVec.getLsbD_and, fieldF, fieldN, BitVec.getLsbD_extractLsb', BitVec.getLsbD_extractLsb']
  interval_cases k <;> simp [regBits]

/-- The mask `F0FF` keeps the family and the low byte. -/
theorem mask_F0FF (op : Word) : op &&& 0xF0FF#16 = formXKK (fieldF op) 0 (fieldKK op) := by
  apply BitVec.eq_of_getLsbD_eq
  intro k hk
  rw [formXKK_getLsbD, BitVec.getLsbD_and, fieldF, fieldKK, BitVec.getLsbD_extractLsb', BitVec.getLsbD_extractLsb']
  interval_cases k <;> simp [regBits]

/-- The mask `FFFF` keeps everything. -/
theorem mask_FFFF (op : Word) : op &&& 0xFFFF#16 = op := by
  apply BitVec.eq_of_getLsbD_eq
  intro k hk
  rw [BitVec.getLsbD_and]
  interval_cases k <;> simp

/-! ## When a row selects an opcode -/

theorem formNNN_inj (f f' : Nibble) (a a' : Addr12) : formNNN f a = formNNN f' a' ↔ f = f' ∧ a = a' := by
  refine ⟨fun h => ⟨?_, ?_⟩, fun h => by rw [h.1, h.2]⟩
  · rw [← fieldF_formNNN f a, h, fieldF_formNNN]
  · rw [← fieldNNN_formNNN f a, h, fieldNNN_formNNN]

theorem formXKK_inj (f f' : Nibble) (x x' : Reg) (k k' : Byte) :
    formXKK f x k = formXKK f' x' k' ↔ f = f' ∧ x = x' ∧ k = k' := by
  refine ⟨fun h => ⟨?_, ?_, ?_⟩, fun h => by rw [h.1, h.2.1, h.2.2]⟩
  · rw [← fieldF_formXKK f x k, h, fieldF_formXKK]
  · rw [← fieldX_formXKK f x k, h, fieldX_formXKK]
  · rw [← fieldKK_formXKK f x k, h, fieldKK_formXKK]

theorem formXYN_inj (f f' : Nibble) (x x' y y' : Reg) (n n' : Nibble) :
    formXYN f x y n = formXYN f' x' y' n' ↔ f = f' ∧ x = x' ∧ y = y' ∧ n = n' := by
  refine ⟨fun h => ⟨?_, ?_, ?_, ?_⟩, fun h => by rw [h.1, h.2.1, h.2.2.1, h.2.2.2]⟩
  · rw [← fieldF_formXYN f x y n, h, fieldF_formXYN]
  · rw [← fieldX_formXYN f x y n, h, fieldX_formXYN]
  · rw [← fieldY_formXYN f x y n, h, fieldY_formXYN]
  · rw [← fieldN_formXYN f x y n, h, fieldN_formXYN]

/-- A row with mask `F000` selects by the family. -/
theorem and_F000_eq (op : Word) (f : Nibble) : (op &&& 0xF000#16 = formNNN f 0#12) ↔ fieldF op = f := by
  rw [mask_F000, formNNN_inj]; simp

/-- A row with mask `F00F` selects by the family and the low nibble. -/
theorem and_F00F_eq (op : Word) (f n : Nibble) :
    (op &&& 0xF00F#16 = formXYN f 0 0 n) ↔ fieldF op = f ∧ fieldN op = n := by
  rw [mask_F00F, formXYN_inj]; simp

/-- A row with mask `F0FF` selects by the family and the low byte. -/
theorem and_F0FF_eq (op : Word) (f : Nibble) (k : Byte) :
    (op &&& 0xF0FF#16 = formXKK f 0 k) ↔ fieldF op = f ∧ fieldKK op = k := by
  rw [mask_F0FF, formXKK_inj]; simp

end Sys2Proof
end

