-- ==== Sys2Proof/Laws/Decode.lean ====
section
/-! SUPPORT. What the decoder answers, said once by the fields of the opcode. -/

namespace Sys2Proof

/-! ## When a row selects an opcode, by the opcode's fields -/

theorem sel_F000 (op p : Word) (f : Nibble) (h : formNNN f 0#12 = p) :
    (op &&& 0xF000#16 == p) = decide (fieldF op = f) := by
  subst h; rw [Bool.eq_iff_iff]; simp [and_F000_eq]
theorem sel_F00F (op p : Word) (f n : Nibble) (h : formXYN f 0 0 n = p) :
    (op &&& 0xF00F#16 == p) = decide (fieldF op = f ∧ fieldN op = n) := by
  subst h; rw [Bool.eq_iff_iff]; simp [and_F00F_eq]
theorem sel_F0FF (op p : Word) (f : Nibble) (n : Byte) (h : formXKK f 0 n = p) :
    (op &&& 0xF0FF#16 == p) = decide (fieldF op = f ∧ fieldKK op = n) := by
  subst h; rw [Bool.eq_iff_iff]; simp [and_F0FF_eq]
theorem sel_FFFF (op p : Word) : (op &&& 0xFFFF#16 == p) = decide (op = p) := by
  rw [mask_FFFF, Bool.eq_iff_iff]; simp

/-- The decoder by the fields of the opcode, in the table's order (30_encoding.md R75): the one lemma that unfolds the
table. -/
theorem decodeWord_eq (op : Word) : decodeWord op =
  if op = 0x00E0#16 then .cls else if op = 0x00EE#16 then .ret
  else if fieldF op = 0 then .sys (fieldNNN op) else if fieldF op = 1 then .jp (fieldNNN op)
  else if fieldF op = 2 then .call (fieldNNN op) else if fieldF op = 3 then .seImm (fieldX op) (fieldKK op)
  else if fieldF op = 4 then .sneImm (fieldX op) (fieldKK op)
  else if fieldF op = 5 ∧ fieldN op = 0 then .seReg (fieldX op) (fieldY op)
  else if fieldF op = 6 then .ldImm (fieldX op) (fieldKK op)
  else if fieldF op = 7 then .addImm (fieldX op) (fieldKK op)
  else if fieldF op = 8 ∧ fieldN op = 0 then .ldReg (fieldX op) (fieldY op)
  else if fieldF op = 8 ∧ fieldN op = 1 then .orReg (fieldX op) (fieldY op)
  else if fieldF op = 8 ∧ fieldN op = 2 then .andReg (fieldX op) (fieldY op)
  else if fieldF op = 8 ∧ fieldN op = 3 then .xorReg (fieldX op) (fieldY op)
  else if fieldF op = 8 ∧ fieldN op = 4 then .addReg (fieldX op) (fieldY op)
  else if fieldF op = 8 ∧ fieldN op = 5 then .subReg (fieldX op) (fieldY op)
  else if fieldF op = 8 ∧ fieldN op = 6 then .shr (fieldX op) (fieldY op)
  else if fieldF op = 8 ∧ fieldN op = 7 then .subn (fieldX op) (fieldY op)
  else if fieldF op = 8 ∧ fieldN op = 14 then .shl (fieldX op) (fieldY op)
  else if fieldF op = 9 ∧ fieldN op = 0 then .sneReg (fieldX op) (fieldY op)
  else if fieldF op = 10 then .ldI (fieldNNN op) else if fieldF op = 11 then .jpV0 (fieldNNN op)
  else if fieldF op = 12 then .rnd (fieldX op) (fieldKK op)
  else if fieldF op = 13 then .drw (fieldX op) (fieldY op) (fieldN op)
  else if fieldF op = 14 ∧ fieldKK op = 0x9E then .skp (fieldX op)
  else if fieldF op = 14 ∧ fieldKK op = 0xA1 then .sknp (fieldX op)
  else if fieldF op = 15 ∧ fieldKK op = 0x07 then .ldVxDT (fieldX op)
  else if fieldF op = 15 ∧ fieldKK op = 0x0A then .ldVxK (fieldX op)
  else if fieldF op = 15 ∧ fieldKK op = 0x15 then .ldDTVx (fieldX op)
  else if fieldF op = 15 ∧ fieldKK op = 0x18 then .ldSTVx (fieldX op)
  else if fieldF op = 15 ∧ fieldKK op = 0x1E then .addI (fieldX op)
  else if fieldF op = 15 ∧ fieldKK op = 0x29 then .ldF (fieldX op)
  else if fieldF op = 15 ∧ fieldKK op = 0x33 then .ldB (fieldX op)
  else if fieldF op = 15 ∧ fieldKK op = 0x55 then .ldMemVx (fieldX op)
  else if fieldF op = 15 ∧ fieldKK op = 0x65 then .ldVxMem (fieldX op)
  else .unrecognised op := by
  simp only [decodeWord, opcodeTable, opcodeRowsImm, opcodeRowsReg, opcodeRowsSpecial, List.cons_append, List.nil_append,
    firstMatch, OpcodeRow.selects, sel_FFFF,
    sel_F000 op 0x0000#16 0 rfl, sel_F000 op 0x1000#16 1 rfl, sel_F000 op 0x2000#16 2 rfl, sel_F000 op 0x3000#16 3 rfl,
    sel_F000 op 0x4000#16 4 rfl, sel_F000 op 0x6000#16 6 rfl, sel_F000 op 0x7000#16 7 rfl, sel_F000 op 0xA000#16 10 rfl,
    sel_F000 op 0xB000#16 11 rfl, sel_F000 op 0xC000#16 12 rfl, sel_F000 op 0xD000#16 13 rfl,
    sel_F00F op 0x5000#16 5 0 rfl, sel_F00F op 0x8000#16 8 0 rfl, sel_F00F op 0x8001#16 8 1 rfl, sel_F00F op 0x8002#16 8 2 rfl,
    sel_F00F op 0x8003#16 8 3 rfl, sel_F00F op 0x8004#16 8 4 rfl, sel_F00F op 0x8005#16 8 5 rfl, sel_F00F op 0x8006#16 8 6 rfl,
    sel_F00F op 0x8007#16 8 7 rfl, sel_F00F op 0x800E#16 8 14 rfl, sel_F00F op 0x9000#16 9 0 rfl,
    sel_F0FF op 0xE09E#16 14 0x9E rfl, sel_F0FF op 0xE0A1#16 14 0xA1 rfl, sel_F0FF op 0xF007#16 15 0x07 rfl,
    sel_F0FF op 0xF00A#16 15 0x0A rfl, sel_F0FF op 0xF015#16 15 0x15 rfl, sel_F0FF op 0xF018#16 15 0x18 rfl,
    sel_F0FF op 0xF01E#16 15 0x1E rfl, sel_F0FF op 0xF029#16 15 0x29 rfl, sel_F0FF op 0xF033#16 15 0x33 rfl,
    sel_F0FF op 0xF055#16 15 0x55 rfl, sel_F0FF op 0xF065#16 15 0x65 rfl, decide_eq_true_eq]

end Sys2Proof
end

