-- ==== Sys2Proof/Laws/State.lean ====
section
/-! SUPPORT. One lemma per field per update, each true by rfl, and what a register reads after a write. -/

namespace Sys2Proof.Machine

variable (s : State)

/-! ### setI -/

@[simp] theorem State.setI_v (a : Word) : (s.setI a).v = s.v := rfl
@[simp] theorem State.setI_i (a : Word) : (s.setI a).i = a := rfl
@[simp] theorem State.setI_pc (a : Word) : (s.setI a).pc = s.pc := rfl
@[simp] theorem State.setI_sp (a : Word) : (s.setI a).sp = s.sp := rfl
@[simp] theorem State.setI_stack (a : Word) : (s.setI a).stack = s.stack := rfl
@[simp] theorem State.setI_dt (a : Word) : (s.setI a).dt = s.dt := rfl
@[simp] theorem State.setI_st (a : Word) : (s.setI a).st = s.st := rfl
@[simp] theorem State.setI_mem (a : Word) : (s.setI a).mem = s.mem := rfl
@[simp] theorem State.setI_fb (a : Word) : (s.setI a).fb = s.fb := rfl
@[simp] theorem State.setI_keys (a : Word) : (s.setI a).keys = s.keys := rfl
@[simp] theorem State.setI_fault (a : Word) : (s.setI a).fault = s.fault := rfl
@[simp] theorem State.setI_draws (a : Word) : (s.setI a).draws = s.draws := rfl

/-! ### setPc -/

@[simp] theorem State.setPc_v (a : Word) : (s.setPc a).v = s.v := rfl
@[simp] theorem State.setPc_i (a : Word) : (s.setPc a).i = s.i := rfl
@[simp] theorem State.setPc_pc (a : Word) : (s.setPc a).pc = a := rfl
@[simp] theorem State.setPc_sp (a : Word) : (s.setPc a).sp = s.sp := rfl
@[simp] theorem State.setPc_stack (a : Word) : (s.setPc a).stack = s.stack := rfl
@[simp] theorem State.setPc_dt (a : Word) : (s.setPc a).dt = s.dt := rfl
@[simp] theorem State.setPc_st (a : Word) : (s.setPc a).st = s.st := rfl
@[simp] theorem State.setPc_mem (a : Word) : (s.setPc a).mem = s.mem := rfl
@[simp] theorem State.setPc_fb (a : Word) : (s.setPc a).fb = s.fb := rfl
@[simp] theorem State.setPc_keys (a : Word) : (s.setPc a).keys = s.keys := rfl
@[simp] theorem State.setPc_fault (a : Word) : (s.setPc a).fault = s.fault := rfl
@[simp] theorem State.setPc_draws (a : Word) : (s.setPc a).draws = s.draws := rfl

/-! ### setSp -/

@[simp] theorem State.setSp_v (p : Fin 16) : (s.setSp p).v = s.v := rfl
@[simp] theorem State.setSp_i (p : Fin 16) : (s.setSp p).i = s.i := rfl
@[simp] theorem State.setSp_pc (p : Fin 16) : (s.setSp p).pc = s.pc := rfl
@[simp] theorem State.setSp_sp (p : Fin 16) : (s.setSp p).sp = p := rfl
@[simp] theorem State.setSp_stack (p : Fin 16) : (s.setSp p).stack = s.stack := rfl
@[simp] theorem State.setSp_dt (p : Fin 16) : (s.setSp p).dt = s.dt := rfl
@[simp] theorem State.setSp_st (p : Fin 16) : (s.setSp p).st = s.st := rfl
@[simp] theorem State.setSp_mem (p : Fin 16) : (s.setSp p).mem = s.mem := rfl
@[simp] theorem State.setSp_fb (p : Fin 16) : (s.setSp p).fb = s.fb := rfl
@[simp] theorem State.setSp_keys (p : Fin 16) : (s.setSp p).keys = s.keys := rfl
@[simp] theorem State.setSp_fault (p : Fin 16) : (s.setSp p).fault = s.fault := rfl
@[simp] theorem State.setSp_draws (p : Fin 16) : (s.setSp p).draws = s.draws := rfl

/-! ### setSlot -/

@[simp] theorem State.setSlot_v (p : Fin 16) (a : Word) : (s.setSlot p a).v = s.v := rfl
@[simp] theorem State.setSlot_i (p : Fin 16) (a : Word) : (s.setSlot p a).i = s.i := rfl
@[simp] theorem State.setSlot_pc (p : Fin 16) (a : Word) : (s.setSlot p a).pc = s.pc := rfl
@[simp] theorem State.setSlot_sp (p : Fin 16) (a : Word) : (s.setSlot p a).sp = s.sp := rfl
@[simp] theorem State.setSlot_stack (p : Fin 16) (a : Word) : (s.setSlot p a).stack = s.stack.set p.val a p.isLt := rfl
@[simp] theorem State.setSlot_dt (p : Fin 16) (a : Word) : (s.setSlot p a).dt = s.dt := rfl
@[simp] theorem State.setSlot_st (p : Fin 16) (a : Word) : (s.setSlot p a).st = s.st := rfl
@[simp] theorem State.setSlot_mem (p : Fin 16) (a : Word) : (s.setSlot p a).mem = s.mem := rfl
@[simp] theorem State.setSlot_fb (p : Fin 16) (a : Word) : (s.setSlot p a).fb = s.fb := rfl
@[simp] theorem State.setSlot_keys (p : Fin 16) (a : Word) : (s.setSlot p a).keys = s.keys := rfl
@[simp] theorem State.setSlot_fault (p : Fin 16) (a : Word) : (s.setSlot p a).fault = s.fault := rfl
@[simp] theorem State.setSlot_draws (p : Fin 16) (a : Word) : (s.setSlot p a).draws = s.draws := rfl

/-! ### setDt -/

@[simp] theorem State.setDt_v (b : Byte) : (s.setDt b).v = s.v := rfl
@[simp] theorem State.setDt_i (b : Byte) : (s.setDt b).i = s.i := rfl
@[simp] theorem State.setDt_pc (b : Byte) : (s.setDt b).pc = s.pc := rfl
@[simp] theorem State.setDt_sp (b : Byte) : (s.setDt b).sp = s.sp := rfl
@[simp] theorem State.setDt_stack (b : Byte) : (s.setDt b).stack = s.stack := rfl
@[simp] theorem State.setDt_dt (b : Byte) : (s.setDt b).dt = b := rfl
@[simp] theorem State.setDt_st (b : Byte) : (s.setDt b).st = s.st := rfl
@[simp] theorem State.setDt_mem (b : Byte) : (s.setDt b).mem = s.mem := rfl
@[simp] theorem State.setDt_fb (b : Byte) : (s.setDt b).fb = s.fb := rfl
@[simp] theorem State.setDt_keys (b : Byte) : (s.setDt b).keys = s.keys := rfl
@[simp] theorem State.setDt_fault (b : Byte) : (s.setDt b).fault = s.fault := rfl
@[simp] theorem State.setDt_draws (b : Byte) : (s.setDt b).draws = s.draws := rfl

/-! ### setSt -/

@[simp] theorem State.setSt_v (b : Byte) : (s.setSt b).v = s.v := rfl
@[simp] theorem State.setSt_i (b : Byte) : (s.setSt b).i = s.i := rfl
@[simp] theorem State.setSt_pc (b : Byte) : (s.setSt b).pc = s.pc := rfl
@[simp] theorem State.setSt_sp (b : Byte) : (s.setSt b).sp = s.sp := rfl
@[simp] theorem State.setSt_stack (b : Byte) : (s.setSt b).stack = s.stack := rfl
@[simp] theorem State.setSt_dt (b : Byte) : (s.setSt b).dt = s.dt := rfl
@[simp] theorem State.setSt_st (b : Byte) : (s.setSt b).st = b := rfl
@[simp] theorem State.setSt_mem (b : Byte) : (s.setSt b).mem = s.mem := rfl
@[simp] theorem State.setSt_fb (b : Byte) : (s.setSt b).fb = s.fb := rfl
@[simp] theorem State.setSt_keys (b : Byte) : (s.setSt b).keys = s.keys := rfl
@[simp] theorem State.setSt_fault (b : Byte) : (s.setSt b).fault = s.fault := rfl
@[simp] theorem State.setSt_draws (b : Byte) : (s.setSt b).draws = s.draws := rfl

/-! ### setMem -/

@[simp] theorem State.setMem_v (m : Memory) : (s.setMem m).v = s.v := rfl
@[simp] theorem State.setMem_i (m : Memory) : (s.setMem m).i = s.i := rfl
@[simp] theorem State.setMem_pc (m : Memory) : (s.setMem m).pc = s.pc := rfl
@[simp] theorem State.setMem_sp (m : Memory) : (s.setMem m).sp = s.sp := rfl
@[simp] theorem State.setMem_stack (m : Memory) : (s.setMem m).stack = s.stack := rfl
@[simp] theorem State.setMem_dt (m : Memory) : (s.setMem m).dt = s.dt := rfl
@[simp] theorem State.setMem_st (m : Memory) : (s.setMem m).st = s.st := rfl
@[simp] theorem State.setMem_mem (m : Memory) : (s.setMem m).mem = m := rfl
@[simp] theorem State.setMem_fb (m : Memory) : (s.setMem m).fb = s.fb := rfl
@[simp] theorem State.setMem_keys (m : Memory) : (s.setMem m).keys = s.keys := rfl
@[simp] theorem State.setMem_fault (m : Memory) : (s.setMem m).fault = s.fault := rfl
@[simp] theorem State.setMem_draws (m : Memory) : (s.setMem m).draws = s.draws := rfl

/-! ### setFb -/

@[simp] theorem State.setFb_v (fb : Framebuffer) : (s.setFb fb).v = s.v := rfl
@[simp] theorem State.setFb_i (fb : Framebuffer) : (s.setFb fb).i = s.i := rfl
@[simp] theorem State.setFb_pc (fb : Framebuffer) : (s.setFb fb).pc = s.pc := rfl
@[simp] theorem State.setFb_sp (fb : Framebuffer) : (s.setFb fb).sp = s.sp := rfl
@[simp] theorem State.setFb_stack (fb : Framebuffer) : (s.setFb fb).stack = s.stack := rfl
@[simp] theorem State.setFb_dt (fb : Framebuffer) : (s.setFb fb).dt = s.dt := rfl
@[simp] theorem State.setFb_st (fb : Framebuffer) : (s.setFb fb).st = s.st := rfl
@[simp] theorem State.setFb_mem (fb : Framebuffer) : (s.setFb fb).mem = s.mem := rfl
@[simp] theorem State.setFb_fb (fb : Framebuffer) : (s.setFb fb).fb = fb := rfl
@[simp] theorem State.setFb_keys (fb : Framebuffer) : (s.setFb fb).keys = s.keys := rfl
@[simp] theorem State.setFb_fault (fb : Framebuffer) : (s.setFb fb).fault = s.fault := rfl
@[simp] theorem State.setFb_draws (fb : Framebuffer) : (s.setFb fb).draws = s.draws := rfl

/-! ### setKeys -/

@[simp] theorem State.setKeys_v (k : Vector Bool 16) : (s.setKeys k).v = s.v := rfl
@[simp] theorem State.setKeys_i (k : Vector Bool 16) : (s.setKeys k).i = s.i := rfl
@[simp] theorem State.setKeys_pc (k : Vector Bool 16) : (s.setKeys k).pc = s.pc := rfl
@[simp] theorem State.setKeys_sp (k : Vector Bool 16) : (s.setKeys k).sp = s.sp := rfl
@[simp] theorem State.setKeys_stack (k : Vector Bool 16) : (s.setKeys k).stack = s.stack := rfl
@[simp] theorem State.setKeys_dt (k : Vector Bool 16) : (s.setKeys k).dt = s.dt := rfl
@[simp] theorem State.setKeys_st (k : Vector Bool 16) : (s.setKeys k).st = s.st := rfl
@[simp] theorem State.setKeys_mem (k : Vector Bool 16) : (s.setKeys k).mem = s.mem := rfl
@[simp] theorem State.setKeys_fb (k : Vector Bool 16) : (s.setKeys k).fb = s.fb := rfl
@[simp] theorem State.setKeys_keys (k : Vector Bool 16) : (s.setKeys k).keys = k := rfl
@[simp] theorem State.setKeys_fault (k : Vector Bool 16) : (s.setKeys k).fault = s.fault := rfl
@[simp] theorem State.setKeys_draws (k : Vector Bool 16) : (s.setKeys k).draws = s.draws := rfl

/-! ### setFault -/

@[simp] theorem State.setFault_v (f : Option Fault) : (s.setFault f).v = s.v := rfl
@[simp] theorem State.setFault_i (f : Option Fault) : (s.setFault f).i = s.i := rfl
@[simp] theorem State.setFault_pc (f : Option Fault) : (s.setFault f).pc = s.pc := rfl
@[simp] theorem State.setFault_sp (f : Option Fault) : (s.setFault f).sp = s.sp := rfl
@[simp] theorem State.setFault_stack (f : Option Fault) : (s.setFault f).stack = s.stack := rfl
@[simp] theorem State.setFault_dt (f : Option Fault) : (s.setFault f).dt = s.dt := rfl
@[simp] theorem State.setFault_st (f : Option Fault) : (s.setFault f).st = s.st := rfl
@[simp] theorem State.setFault_mem (f : Option Fault) : (s.setFault f).mem = s.mem := rfl
@[simp] theorem State.setFault_fb (f : Option Fault) : (s.setFault f).fb = s.fb := rfl
@[simp] theorem State.setFault_keys (f : Option Fault) : (s.setFault f).keys = s.keys := rfl
@[simp] theorem State.setFault_fault (f : Option Fault) : (s.setFault f).fault = f := rfl
@[simp] theorem State.setFault_draws (f : Option Fault) : (s.setFault f).draws = s.draws := rfl

/-! ### countDraw -/

@[simp] theorem State.countDraw_v : (s.countDraw).v = s.v := rfl
@[simp] theorem State.countDraw_i : (s.countDraw).i = s.i := rfl
@[simp] theorem State.countDraw_pc : (s.countDraw).pc = s.pc := rfl
@[simp] theorem State.countDraw_sp : (s.countDraw).sp = s.sp := rfl
@[simp] theorem State.countDraw_stack : (s.countDraw).stack = s.stack := rfl
@[simp] theorem State.countDraw_dt : (s.countDraw).dt = s.dt := rfl
@[simp] theorem State.countDraw_st : (s.countDraw).st = s.st := rfl
@[simp] theorem State.countDraw_mem : (s.countDraw).mem = s.mem := rfl
@[simp] theorem State.countDraw_fb : (s.countDraw).fb = s.fb := rfl
@[simp] theorem State.countDraw_keys : (s.countDraw).keys = s.keys := rfl
@[simp] theorem State.countDraw_fault : (s.countDraw).fault = s.fault := rfl
@[simp] theorem State.countDraw_draws : (s.countDraw).draws = s.draws + 1 := rfl

/-! ### writeReg -/

@[simp] theorem State.writeReg_v (r : Reg) (b : Byte) : (s.writeReg r b).v = s.v.set r.val b r.isLt := rfl
@[simp] theorem State.writeReg_i (r : Reg) (b : Byte) : (s.writeReg r b).i = s.i := rfl
@[simp] theorem State.writeReg_pc (r : Reg) (b : Byte) : (s.writeReg r b).pc = s.pc := rfl
@[simp] theorem State.writeReg_sp (r : Reg) (b : Byte) : (s.writeReg r b).sp = s.sp := rfl
@[simp] theorem State.writeReg_stack (r : Reg) (b : Byte) : (s.writeReg r b).stack = s.stack := rfl
@[simp] theorem State.writeReg_dt (r : Reg) (b : Byte) : (s.writeReg r b).dt = s.dt := rfl
@[simp] theorem State.writeReg_st (r : Reg) (b : Byte) : (s.writeReg r b).st = s.st := rfl
@[simp] theorem State.writeReg_mem (r : Reg) (b : Byte) : (s.writeReg r b).mem = s.mem := rfl
@[simp] theorem State.writeReg_fb (r : Reg) (b : Byte) : (s.writeReg r b).fb = s.fb := rfl
@[simp] theorem State.writeReg_keys (r : Reg) (b : Byte) : (s.writeReg r b).keys = s.keys := rfl
@[simp] theorem State.writeReg_fault (r : Reg) (b : Byte) : (s.writeReg r b).fault = s.fault := rfl
@[simp] theorem State.writeReg_draws (r : Reg) (b : Byte) : (s.writeReg r b).draws = s.draws := rfl

/-! ### writeRegsFrom0 -/

@[simp] theorem State.writeRegsFrom0_v (bs : List Byte) : (s.writeRegsFrom0 bs).v = Vector.ofFn fun j => bs.getD j.val s.v[j.val] := rfl
@[simp] theorem State.writeRegsFrom0_i (bs : List Byte) : (s.writeRegsFrom0 bs).i = s.i := rfl
@[simp] theorem State.writeRegsFrom0_pc (bs : List Byte) : (s.writeRegsFrom0 bs).pc = s.pc := rfl
@[simp] theorem State.writeRegsFrom0_sp (bs : List Byte) : (s.writeRegsFrom0 bs).sp = s.sp := rfl
@[simp] theorem State.writeRegsFrom0_stack (bs : List Byte) : (s.writeRegsFrom0 bs).stack = s.stack := rfl
@[simp] theorem State.writeRegsFrom0_dt (bs : List Byte) : (s.writeRegsFrom0 bs).dt = s.dt := rfl
@[simp] theorem State.writeRegsFrom0_st (bs : List Byte) : (s.writeRegsFrom0 bs).st = s.st := rfl
@[simp] theorem State.writeRegsFrom0_mem (bs : List Byte) : (s.writeRegsFrom0 bs).mem = s.mem := rfl
@[simp] theorem State.writeRegsFrom0_fb (bs : List Byte) : (s.writeRegsFrom0 bs).fb = s.fb := rfl
@[simp] theorem State.writeRegsFrom0_keys (bs : List Byte) : (s.writeRegsFrom0 bs).keys = s.keys := rfl
@[simp] theorem State.writeRegsFrom0_fault (bs : List Byte) : (s.writeRegsFrom0 bs).fault = s.fault := rfl
@[simp] theorem State.writeRegsFrom0_draws (bs : List Byte) : (s.writeRegsFrom0 bs).draws = s.draws := rfl

/-! ### advancePc -/

@[simp] theorem State.advancePc_v : (s.advancePc).v = s.v := rfl
@[simp] theorem State.advancePc_i : (s.advancePc).i = s.i := rfl
@[simp] theorem State.advancePc_pc : (s.advancePc).pc = s.pc + 2#16 := rfl
@[simp] theorem State.advancePc_sp : (s.advancePc).sp = s.sp := rfl
@[simp] theorem State.advancePc_stack : (s.advancePc).stack = s.stack := rfl
@[simp] theorem State.advancePc_dt : (s.advancePc).dt = s.dt := rfl
@[simp] theorem State.advancePc_st : (s.advancePc).st = s.st := rfl
@[simp] theorem State.advancePc_mem : (s.advancePc).mem = s.mem := rfl
@[simp] theorem State.advancePc_fb : (s.advancePc).fb = s.fb := rfl
@[simp] theorem State.advancePc_keys : (s.advancePc).keys = s.keys := rfl
@[simp] theorem State.advancePc_fault : (s.advancePc).fault = s.fault := rfl
@[simp] theorem State.advancePc_draws : (s.advancePc).draws = s.draws := rfl

/-! ### rewindPc -/

@[simp] theorem State.rewindPc_v : (s.rewindPc).v = s.v := rfl
@[simp] theorem State.rewindPc_i : (s.rewindPc).i = s.i := rfl
@[simp] theorem State.rewindPc_pc : (s.rewindPc).pc = s.pc - 2#16 := rfl
@[simp] theorem State.rewindPc_sp : (s.rewindPc).sp = s.sp := rfl
@[simp] theorem State.rewindPc_stack : (s.rewindPc).stack = s.stack := rfl
@[simp] theorem State.rewindPc_dt : (s.rewindPc).dt = s.dt := rfl
@[simp] theorem State.rewindPc_st : (s.rewindPc).st = s.st := rfl
@[simp] theorem State.rewindPc_mem : (s.rewindPc).mem = s.mem := rfl
@[simp] theorem State.rewindPc_fb : (s.rewindPc).fb = s.fb := rfl
@[simp] theorem State.rewindPc_keys : (s.rewindPc).keys = s.keys := rfl
@[simp] theorem State.rewindPc_fault : (s.rewindPc).fault = s.fault := rfl
@[simp] theorem State.rewindPc_draws : (s.rewindPc).draws = s.draws := rfl

/-! ### pushPc -/

@[simp] theorem State.pushPc_v : (s.pushPc).v = s.v := rfl
@[simp] theorem State.pushPc_i : (s.pushPc).i = s.i := rfl
@[simp] theorem State.pushPc_pc : (s.pushPc).pc = s.pc := rfl
@[simp] theorem State.pushPc_sp : (s.pushPc).sp = s.sp + 1 := rfl
@[simp] theorem State.pushPc_stack : (s.pushPc).stack = s.stack.set s.sp.val s.pc s.sp.isLt := rfl
@[simp] theorem State.pushPc_dt : (s.pushPc).dt = s.dt := rfl
@[simp] theorem State.pushPc_st : (s.pushPc).st = s.st := rfl
@[simp] theorem State.pushPc_mem : (s.pushPc).mem = s.mem := rfl
@[simp] theorem State.pushPc_fb : (s.pushPc).fb = s.fb := rfl
@[simp] theorem State.pushPc_keys : (s.pushPc).keys = s.keys := rfl
@[simp] theorem State.pushPc_fault : (s.pushPc).fault = s.fault := rfl
@[simp] theorem State.pushPc_draws : (s.pushPc).draws = s.draws := rfl

/-! ### popPc -/

@[simp] theorem State.popPc_v : (s.popPc).v = s.v := rfl
@[simp] theorem State.popPc_i : (s.popPc).i = s.i := rfl
@[simp] theorem State.popPc_pc : (s.popPc).pc = s.stack[(s.sp - 1).val] := rfl
@[simp] theorem State.popPc_sp : (s.popPc).sp = s.sp - 1 := rfl
@[simp] theorem State.popPc_stack : (s.popPc).stack = s.stack := rfl
@[simp] theorem State.popPc_dt : (s.popPc).dt = s.dt := rfl
@[simp] theorem State.popPc_st : (s.popPc).st = s.st := rfl
@[simp] theorem State.popPc_mem : (s.popPc).mem = s.mem := rfl
@[simp] theorem State.popPc_fb : (s.popPc).fb = s.fb := rfl
@[simp] theorem State.popPc_keys : (s.popPc).keys = s.keys := rfl
@[simp] theorem State.popPc_fault : (s.popPc).fault = s.fault := rfl
@[simp] theorem State.popPc_draws : (s.popPc).draws = s.draws := rfl

/-! ### tickTimers -/

@[simp] theorem State.tickTimers_v : (s.tickTimers).v = s.v := rfl
@[simp] theorem State.tickTimers_i : (s.tickTimers).i = s.i := rfl
@[simp] theorem State.tickTimers_pc : (s.tickTimers).pc = s.pc := rfl
@[simp] theorem State.tickTimers_sp : (s.tickTimers).sp = s.sp := rfl
@[simp] theorem State.tickTimers_stack : (s.tickTimers).stack = s.stack := rfl
@[simp] theorem State.tickTimers_dt : (s.tickTimers).dt = tick s.dt := rfl
@[simp] theorem State.tickTimers_st : (s.tickTimers).st = tick s.st := rfl
@[simp] theorem State.tickTimers_mem : (s.tickTimers).mem = s.mem := rfl
@[simp] theorem State.tickTimers_fb : (s.tickTimers).fb = s.fb := rfl
@[simp] theorem State.tickTimers_keys : (s.tickTimers).keys = s.keys := rfl
@[simp] theorem State.tickTimers_fault : (s.tickTimers).fault = s.fault := rfl
@[simp] theorem State.tickTimers_draws : (s.tickTimers).draws = s.draws := rfl

/-! ### takeFault -/

@[simp] theorem State.takeFault_v (c : Fault) : (s.takeFault c).v = s.v := rfl
@[simp] theorem State.takeFault_i (c : Fault) : (s.takeFault c).i = s.i := rfl
@[simp] theorem State.takeFault_pc (c : Fault) : (s.takeFault c).pc = s.pc := rfl
@[simp] theorem State.takeFault_sp (c : Fault) : (s.takeFault c).sp = s.sp := rfl
@[simp] theorem State.takeFault_stack (c : Fault) : (s.takeFault c).stack = s.stack := rfl
@[simp] theorem State.takeFault_dt (c : Fault) : (s.takeFault c).dt = s.dt := rfl
@[simp] theorem State.takeFault_st (c : Fault) : (s.takeFault c).st = s.st := rfl
@[simp] theorem State.takeFault_mem (c : Fault) : (s.takeFault c).mem = s.mem := rfl
@[simp] theorem State.takeFault_fb (c : Fault) : (s.takeFault c).fb = s.fb := rfl
@[simp] theorem State.takeFault_keys (c : Fault) : (s.takeFault c).keys = s.keys := rfl
@[simp] theorem State.takeFault_fault (c : Fault) : (s.takeFault c).fault = some c := rfl
@[simp] theorem State.takeFault_draws (c : Fault) : (s.takeFault c).draws = s.draws := rfl

/-! ### writeFlag -/

@[simp] theorem State.writeFlag_v (f : Bool) : (s.writeFlag f).v = s.v.set flagReg.val (flagByte f) flagReg.isLt := rfl
@[simp] theorem State.writeFlag_i (f : Bool) : (s.writeFlag f).i = s.i := rfl
@[simp] theorem State.writeFlag_pc (f : Bool) : (s.writeFlag f).pc = s.pc := rfl
@[simp] theorem State.writeFlag_sp (f : Bool) : (s.writeFlag f).sp = s.sp := rfl
@[simp] theorem State.writeFlag_stack (f : Bool) : (s.writeFlag f).stack = s.stack := rfl
@[simp] theorem State.writeFlag_dt (f : Bool) : (s.writeFlag f).dt = s.dt := rfl
@[simp] theorem State.writeFlag_st (f : Bool) : (s.writeFlag f).st = s.st := rfl
@[simp] theorem State.writeFlag_mem (f : Bool) : (s.writeFlag f).mem = s.mem := rfl
@[simp] theorem State.writeFlag_fb (f : Bool) : (s.writeFlag f).fb = s.fb := rfl
@[simp] theorem State.writeFlag_keys (f : Bool) : (s.writeFlag f).keys = s.keys := rfl
@[simp] theorem State.writeFlag_fault (f : Bool) : (s.writeFlag f).fault = s.fault := rfl
@[simp] theorem State.writeFlag_draws (f : Bool) : (s.writeFlag f).draws = s.draws := rfl

/-! ### atNext -/

@[simp] theorem State.atNext_v : (s.atNext).v = s.v := rfl
@[simp] theorem State.atNext_i : (s.atNext).i = s.i := rfl
@[simp] theorem State.atNext_pc : (s.atNext).pc = s.pc + 2#16 := rfl
@[simp] theorem State.atNext_sp : (s.atNext).sp = s.sp := rfl
@[simp] theorem State.atNext_stack : (s.atNext).stack = s.stack := rfl
@[simp] theorem State.atNext_dt : (s.atNext).dt = s.dt := rfl
@[simp] theorem State.atNext_st : (s.atNext).st = s.st := rfl
@[simp] theorem State.atNext_mem : (s.atNext).mem = s.mem := rfl
@[simp] theorem State.atNext_fb : (s.atNext).fb = s.fb := rfl
@[simp] theorem State.atNext_keys : (s.atNext).keys = s.keys := rfl
@[simp] theorem State.atNext_fault : (s.atNext).fault = s.fault := rfl
@[simp] theorem State.atNext_draws : (s.atNext).draws = s.draws := rfl

/-! ### skipIf -/

@[simp] theorem State.skipIf_v (c : Bool) : (s.skipIf c).v = s.v := by cases c <;> rfl
@[simp] theorem State.skipIf_i (c : Bool) : (s.skipIf c).i = s.i := by cases c <;> rfl
@[simp] theorem State.skipIf_pc (c : Bool) : (s.skipIf c).pc = if c then s.pc + 2#16 else s.pc := by
  cases c <;> rfl
@[simp] theorem State.skipIf_sp (c : Bool) : (s.skipIf c).sp = s.sp := by cases c <;> rfl
@[simp] theorem State.skipIf_stack (c : Bool) : (s.skipIf c).stack = s.stack := by cases c <;> rfl
@[simp] theorem State.skipIf_dt (c : Bool) : (s.skipIf c).dt = s.dt := by cases c <;> rfl
@[simp] theorem State.skipIf_st (c : Bool) : (s.skipIf c).st = s.st := by cases c <;> rfl
@[simp] theorem State.skipIf_mem (c : Bool) : (s.skipIf c).mem = s.mem := by cases c <;> rfl
@[simp] theorem State.skipIf_fb (c : Bool) : (s.skipIf c).fb = s.fb := by cases c <;> rfl
@[simp] theorem State.skipIf_keys (c : Bool) : (s.skipIf c).keys = s.keys := by cases c <;> rfl
@[simp] theorem State.skipIf_fault (c : Bool) : (s.skipIf c).fault = s.fault := by cases c <;> rfl
@[simp] theorem State.skipIf_draws (c : Bool) : (s.skipIf c).draws = s.draws := by cases c <;> rfl

/-! ### Registers and keys read through an update that writes none -/

@[simp] theorem State.readReg_setI (a : Word) (q : Reg) : (s.setI a).readReg q = s.readReg q := rfl
@[simp] theorem State.keyPressed_setI (a : Word) (j : Fin 16) : (s.setI a).keyPressed j = s.keyPressed j := rfl
@[simp] theorem State.readReg_setPc (a : Word) (q : Reg) : (s.setPc a).readReg q = s.readReg q := rfl
@[simp] theorem State.keyPressed_setPc (a : Word) (j : Fin 16) : (s.setPc a).keyPressed j = s.keyPressed j := rfl
@[simp] theorem State.readReg_setSp (p : Fin 16) (q : Reg) : (s.setSp p).readReg q = s.readReg q := rfl
@[simp] theorem State.keyPressed_setSp (p : Fin 16) (j : Fin 16) : (s.setSp p).keyPressed j = s.keyPressed j := rfl
@[simp] theorem State.readReg_setSlot (p : Fin 16) (a : Word) (q : Reg) : (s.setSlot p a).readReg q = s.readReg q := rfl
@[simp] theorem State.keyPressed_setSlot (p : Fin 16) (a : Word) (j : Fin 16) : (s.setSlot p a).keyPressed j = s.keyPressed j := rfl
@[simp] theorem State.readReg_setDt (b : Byte) (q : Reg) : (s.setDt b).readReg q = s.readReg q := rfl
@[simp] theorem State.keyPressed_setDt (b : Byte) (j : Fin 16) : (s.setDt b).keyPressed j = s.keyPressed j := rfl
@[simp] theorem State.readReg_setSt (b : Byte) (q : Reg) : (s.setSt b).readReg q = s.readReg q := rfl
@[simp] theorem State.keyPressed_setSt (b : Byte) (j : Fin 16) : (s.setSt b).keyPressed j = s.keyPressed j := rfl
@[simp] theorem State.readReg_setMem (m : Memory) (q : Reg) : (s.setMem m).readReg q = s.readReg q := rfl
@[simp] theorem State.keyPressed_setMem (m : Memory) (j : Fin 16) : (s.setMem m).keyPressed j = s.keyPressed j := rfl
@[simp] theorem State.readReg_setFb (fb : Framebuffer) (q : Reg) : (s.setFb fb).readReg q = s.readReg q := rfl
@[simp] theorem State.keyPressed_setFb (fb : Framebuffer) (j : Fin 16) : (s.setFb fb).keyPressed j = s.keyPressed j := rfl
@[simp] theorem State.readReg_setKeys (k : Vector Bool 16) (q : Reg) : (s.setKeys k).readReg q = s.readReg q := rfl
@[simp] theorem State.readReg_setFault (f : Option Fault) (q : Reg) : (s.setFault f).readReg q = s.readReg q := rfl
@[simp] theorem State.keyPressed_setFault (f : Option Fault) (j : Fin 16) : (s.setFault f).keyPressed j = s.keyPressed j := rfl
@[simp] theorem State.readReg_countDraw (q : Reg) : (s.countDraw).readReg q = s.readReg q := rfl
@[simp] theorem State.keyPressed_countDraw (j : Fin 16) : (s.countDraw).keyPressed j = s.keyPressed j := rfl
@[simp] theorem State.keyPressed_writeReg (r : Reg) (b : Byte) (j : Fin 16) : (s.writeReg r b).keyPressed j = s.keyPressed j := rfl
@[simp] theorem State.keyPressed_writeRegsFrom0 (bs : List Byte) (j : Fin 16) : (s.writeRegsFrom0 bs).keyPressed j = s.keyPressed j := rfl
@[simp] theorem State.readReg_advancePc (q : Reg) : (s.advancePc).readReg q = s.readReg q := rfl
@[simp] theorem State.keyPressed_advancePc (j : Fin 16) : (s.advancePc).keyPressed j = s.keyPressed j := rfl
@[simp] theorem State.readReg_rewindPc (q : Reg) : (s.rewindPc).readReg q = s.readReg q := rfl
@[simp] theorem State.keyPressed_rewindPc (j : Fin 16) : (s.rewindPc).keyPressed j = s.keyPressed j := rfl
@[simp] theorem State.readReg_pushPc (q : Reg) : (s.pushPc).readReg q = s.readReg q := rfl
@[simp] theorem State.keyPressed_pushPc (j : Fin 16) : (s.pushPc).keyPressed j = s.keyPressed j := rfl
@[simp] theorem State.readReg_popPc (q : Reg) : (s.popPc).readReg q = s.readReg q := rfl
@[simp] theorem State.keyPressed_popPc (j : Fin 16) : (s.popPc).keyPressed j = s.keyPressed j := rfl
@[simp] theorem State.readReg_tickTimers (q : Reg) : (s.tickTimers).readReg q = s.readReg q := rfl
@[simp] theorem State.keyPressed_tickTimers (j : Fin 16) : (s.tickTimers).keyPressed j = s.keyPressed j := rfl
@[simp] theorem State.readReg_takeFault (c : Fault) (q : Reg) : (s.takeFault c).readReg q = s.readReg q := rfl
@[simp] theorem State.keyPressed_takeFault (c : Fault) (j : Fin 16) : (s.takeFault c).keyPressed j = s.keyPressed j := rfl
@[simp] theorem State.keyPressed_writeFlag (f : Bool) (j : Fin 16) : (s.writeFlag f).keyPressed j = s.keyPressed j := rfl
@[simp] theorem State.readReg_atNext (q : Reg) : (s.atNext).readReg q = s.readReg q := rfl
@[simp] theorem State.keyPressed_atNext (j : Fin 16) : (s.atNext).keyPressed j = s.keyPressed j := rfl
@[simp] theorem State.readReg_skipIf (c : Bool) (q : Reg) : (s.skipIf c).readReg q = s.readReg q := by cases c <;> rfl
@[simp] theorem State.keyPressed_skipIf (c : Bool) (j : Fin 16) : (s.skipIf c).keyPressed j = s.keyPressed j := by cases c <;> rfl
@[simp] theorem State.keyPressed_setKeys (k : Vector Bool 16) (j : Fin 16) : (s.setKeys k).keyPressed j = k[j.val] := rfl

/-! ### Reading a register -/

/-- A register reads what was last written to it. -/
theorem State.readReg_writeReg (r q : Reg) (b : Byte) :
    (s.writeReg r b).readReg q = if q = r then b else s.readReg q := by
  simp only [State.readReg, State.writeReg, Vector.getElem_set, Fin.ext_iff, eq_comm]

@[simp] theorem State.readReg_writeReg_self (r : Reg) (b : Byte) : (s.writeReg r b).readReg r = b := by
  simp [State.readReg_writeReg]

@[simp] theorem State.readReg_writeReg_of_ne (r q : Reg) (b : Byte) (h : q ≠ r) :
    (s.writeReg r b).readReg q = s.readReg q := by
  simp [State.readReg_writeReg, h]

/-- Registers read through the register file alone. -/
theorem State.readReg_congr {s t : State} (h : t.v = s.v) (r : Reg) : t.readReg r = s.readReg r := by
  simp [State.readReg, h]

/-- A flag and a result written together: VF holds the flag, whatever `x` is; another `x` holds the result. -/
theorem State.readReg_writeResultFlag (x q : Reg) (b : Byte) (c : Bool) :
    (s.writeResultFlag x b c).readReg q = if q = flagReg then flagByte c else if q = x then b else s.readReg q := by
  simp only [State.writeResultFlag, State.writeFlag, State.readReg_writeReg]

/-- A register loaded as a block: the byte listed for it, else its old value. -/
theorem State.readReg_writeRegsFrom0 (bs : List Byte) (q : Reg) :
    (s.writeRegsFrom0 bs).readReg q = bs.getD q.val (s.readReg q) := by
  simp [State.readReg, State.writeRegsFrom0]

end Sys2Proof.Machine
end

