-- ==== Sys2Proof/Laws/Memory.lean ====
section
/-! SUPPORT. What the memory operations do: read after write, the canonical form, and the block accesses. -/

namespace Sys2Proof.Machine

/-! ## Read after write -/

/-- Every listed address is at least `lo`: the part of the canonical form that reading needs. -/
theorem Memory.read_of_wfFrom_lt {lo : Nat} {m : Memory} (h : Memory.wfFrom lo m = true) {a : Nat} (ha : a < lo) :
    Memory.read m a = resetByte a := by
  induction m generalizing lo with
  | nil => rfl
  | cons c cs ih =>
    simp only [Memory.wfFrom, Bool.and_eq_true, decide_eq_true_eq] at h
    rw [Memory.read, if_neg (by omega), ih h.2 (by omega)]

/-- `Memory.cons` in front of bytes above `a`. -/
theorem Memory.read_cons_of_wfFrom {a lo : Nat} {b : Byte} {cs : Memory} (h : Memory.wfFrom lo cs = true) (ha : a < lo)
    (q : Nat) : Memory.read (Memory.cons a b cs) q = if q = a then b else Memory.read cs q := by
  by_cases hb : b = resetByte a
  · rw [Memory.cons, if_pos hb]
    split
    · subst_vars; exact Memory.read_of_wfFrom_lt h ha
    · rfl
  · rw [Memory.cons, if_neg hb, Memory.read]
    simp only [eq_comm]

/-- A canonical form above `lo` is one above any lower bound. -/
theorem Memory.wfFrom_mono {lo lo' : Nat} {m : Memory} (h : Memory.wfFrom lo m = true) (hl : lo' ≤ lo) :
    Memory.wfFrom lo' m = true := by
  cases m with
  | nil => rfl
  | cons c cs =>
    simp only [Memory.wfFrom, Bool.and_eq_true, decide_eq_true_eq] at h ⊢
    exact ⟨⟨⟨by omega, h.1.1.2⟩, h.1.2⟩, h.2⟩

/-- Reading after a write: the byte written at its address, and at every other address what was there. -/
theorem Memory.read_write_from {lo : Nat} {m : Memory} (h : Memory.wfFrom lo m = true) (a q : Nat) (b : Byte) :
    Memory.read (Memory.write m a b) q = if q = a then b else Memory.read m q := by
  induction m generalizing lo with
  | nil => exact Memory.read_cons_of_wfFrom (lo := a + 1) rfl (by omega) q
  | cons c cs ih =>
    have hc := h
    simp only [Memory.wfFrom, Bool.and_eq_true, decide_eq_true_eq] at hc
    rw [Memory.write]
    split
    · rename_i hlt
      rw [Memory.read, ih hc.2, Memory.read]
      split <;> split <;> first | rfl | omega
    · split
      · rename_i heq
        rw [Memory.read_cons_of_wfFrom hc.2 (by omega)]
        split
        · rfl
        · rw [Memory.read, if_neg (by omega)]
      · rw [Memory.read_cons_of_wfFrom (lo := c.1) ?_ (by omega)]
        simp only [Memory.wfFrom, Bool.and_eq_true, decide_eq_true_eq]
        exact ⟨⟨⟨by omega, hc.1.1.2⟩, hc.1.2⟩, hc.2⟩

/-- Reading after a write to a memory in canonical form. -/
theorem Memory.read_write {m : Memory} (h : Memory.wf m = true) (a q : Nat) (b : Byte) :
    Memory.read (Memory.write m a b) q = if q = a then b else Memory.read m q :=
  Memory.read_write_from h a q b

/-! ## The canonical form is kept -/

theorem Memory.wfFrom_cons {a lo : Nat} {b : Byte} {cs : Memory} (h : Memory.wfFrom (a + 1) cs = true) (hl : lo ≤ a)
    (ha : a < Config.memSize) : Memory.wfFrom lo (Memory.cons a b cs) = true := by
  by_cases hb : b = resetByte a
  · rw [Memory.cons, if_pos hb]
    exact Memory.wfFrom_mono h (by omega)
  · rw [Memory.cons, if_neg hb]
    simp [Memory.wfFrom, hl, ha, hb, h]

theorem Memory.wfFrom_write {lo : Nat} {m : Memory} (h : Memory.wfFrom lo m = true) {a : Nat} (b : Byte) (hl : lo ≤ a)
    (ha : a < Config.memSize) : Memory.wfFrom lo (Memory.write m a b) = true := by
  induction m generalizing lo with
  | nil => exact Memory.wfFrom_cons rfl hl ha
  | cons c cs ih =>
    have hc := h
    simp only [Memory.wfFrom, Bool.and_eq_true, decide_eq_true_eq] at hc
    rw [Memory.write]
    split
    · simp only [Memory.wfFrom, Bool.and_eq_true, decide_eq_true_eq]
      exact ⟨⟨⟨hc.1.1.1, hc.1.1.2⟩, hc.1.2⟩, ih hc.2 (by omega)⟩
    · split
      · rename_i heq
        exact Memory.wfFrom_cons (heq ▸ hc.2) hl ha
      · refine Memory.wfFrom_cons ?_ hl ha
        simp only [Memory.wfFrom, Bool.and_eq_true, decide_eq_true_eq]
        exact ⟨⟨⟨by omega, hc.1.1.2⟩, hc.1.2⟩, hc.2⟩

/-- A write inside memory keeps the canonical form. -/
theorem Memory.wf_write {m : Memory} (h : Memory.wf m = true) {a : Nat} (b : Byte) (ha : a < Config.memSize) :
    Memory.wf (Memory.write m a b) = true :=
  Memory.wfFrom_write h b (Nat.zero_le a) ha

/-- A block written inside memory keeps the canonical form. -/
theorem Memory.wf_writeAll {m : Memory} (h : Memory.wf m = true) (a : Nat) (bs : List Byte)
    (ha : a + bs.length ≤ Config.memSize) : Memory.wf (Memory.writeAll m a bs) = true := by
  induction bs generalizing m a with
  | nil => exact h
  | cons b bs ih =>
    simp only [List.length_cons] at ha
    exact ih (Memory.wf_write h b (by omega)) (a + 1) (by omega)

/-- Memory at reset is in canonical form. -/
theorem Memory.wf_reset : Memory.wf State.reset.mem = true := rfl

/-- What a block write leaves: its bytes at their addresses, every other byte as before. -/
theorem Memory.read_writeAll {m : Memory} (h : Memory.wf m = true) (a : Nat) (bs : List Byte)
    (ha : a + bs.length ≤ Config.memSize) (q : Nat) :
    Memory.read (Memory.writeAll m a bs) q = if a ≤ q then bs.getD (q - a) (Memory.read m q) else Memory.read m q := by
  induction bs generalizing m a with
  | nil => simp [Memory.writeAll]
  | cons b bs ih =>
    simp only [List.length_cons] at ha
    rw [Memory.writeAll, ih (Memory.wf_write h b (by omega)) (a + 1) (by omega), Memory.read_write h]
    rcases Nat.lt_trichotomy q a with hq | hq | hq
    · rw [if_neg (by omega), if_neg (by omega), if_neg (by omega)]
    · subst hq
      rw [if_neg (by omega), if_pos rfl, if_pos (Nat.le_refl _), Nat.sub_self, List.getD_cons_zero]
    · rw [if_pos (by omega), if_neg (by omega), if_pos (by omega), show q - a = (q - (a + 1)) + 1 by omega,
        List.getD_cons_succ]

/-! ## Block accesses (20_memory.md R63; 60_exceptions.md R235) -/

/-- A block read inside memory answers the bytes. -/
theorem loadBytes_ok (m : Memory) (a n : Nat) (h : n = 0 ∨ a + n ≤ Config.memSize) :
    loadBytes m a n = .ok ((List.range n).map fun k => Memory.read m (a + k)) := by
  induction n generalizing a with
  | zero => rfl
  | succ n ih =>
    have h' : a + (n + 1) ≤ Config.memSize := by omega
    rw [loadBytes, memRead, if_pos (by omega)]
    simp only [ih (a + 1) (by omega), List.range_succ_eq_map, List.map_cons, List.map_map, Nat.add_zero]
    congr 2
    apply List.map_congr_left
    intro k _
    simp only [Function.comp, Nat.succ_eq_add_one]
    congr 1
    omega

/-- A block read that reaches above memory faults, with the lowest address out of range. -/
theorem loadBytes_error (m : Memory) (a n : Nat) (h0 : 0 < n) (h : Config.memSize < a + n) :
    loadBytes m a n = .error (.memOutOfRange (max a Config.memSize)) := by
  induction n generalizing a with
  | zero => omega
  | succ n ih =>
    rw [loadBytes, memRead]
    split
    · rename_i hlt
      split at hlt
      · cases hlt
      · cases hlt
        rw [Nat.max_eq_left (by omega)]
    · rename_i b hb
      split at hb
      · rw [ih (a + 1) (by omega) (by omega), Nat.max_eq_right (by omega), Nat.max_eq_right (by omega)]
      · cases hb

/-- A block store inside memory writes the bytes. -/
theorem storeBytes_ok (m : Memory) (a : Nat) (bs : List Byte) (h : bs = [] ∨ a + bs.length ≤ Config.memSize) :
    storeBytes m a bs = .ok (Memory.writeAll m a bs) := by
  induction bs generalizing m a with
  | nil => rfl
  | cons b bs ih =>
    have h' : a + (bs.length + 1) ≤ Config.memSize := by simpa using h
    rw [storeBytes, memWrite, if_pos (by omega)]
    exact ih (Memory.write m a b) (a + 1) (.inr (by omega))

/-- A block store that reaches above memory faults, with the lowest address out of range. -/
theorem storeBytes_error (m : Memory) (a : Nat) (bs : List Byte) (h0 : bs ≠ []) (h : Config.memSize < a + bs.length) :
    storeBytes m a bs = .error (.memOutOfRange (max a Config.memSize)) := by
  induction bs generalizing m a with
  | nil => exact absurd rfl h0
  | cons b bs ih =>
    simp only [List.length_cons] at h
    rw [storeBytes, memWrite]
    by_cases ha : a < Config.memSize
    · rw [if_pos ha]
      have hne : bs ≠ [] := by
        rintro rfl
        simp at h
        omega
      simp only [ih (Memory.write m a b) (a + 1) hne (by omega)]
      rw [Nat.max_eq_right (by omega), Nat.max_eq_right (by omega)]
    · rw [if_neg ha, Nat.max_eq_left (by omega)]

/-- The bytes of V0 to Vx, how many and which. -/
theorem State.length_regsUpTo (s : State) (x : Reg) : (s.regsUpTo x).length = x.val + 1 := by
  simp [State.regsUpTo]

theorem State.getD_regsUpTo (s : State) (x r : Reg) (h : r.val ≤ x.val) (d : Byte) :
    (s.regsUpTo x).getD r.val d = s.readReg r := by
  simp [State.regsUpTo, State.readReg, List.getD_eq_getElem?_getD, Nat.lt_succ_of_le h]

end Sys2Proof.Machine
end

