-- ==== Sys2Proof/Laws/Step.lean ====
section
/-! SUPPORT. What a fetch, an instruction that may fault, and a whole step can do, each said once. -/

namespace Sys2Proof.Machine

/-! ## Fetch -/

/-- The two bytes a fetch reads. -/
def fetchedWord (s : State) : Word :=
  bytesWord (Memory.read s.mem s.pc.toNat) (Memory.read s.mem (s.pc.toNat + 1))

theorem fetch_ok {s : State} (h : s.pc.toNat ≤ 0xFFE) : fetch s = .ok (fetchedWord s) := by
  rw [fetch, if_pos (by simp only [Config.memSize]; omega)]
  rfl

theorem fetch_error {s : State} (h : 0xFFE < s.pc.toNat) : fetch s = .error (.fetchOutOfRange s.pc) := by
  rw [fetch, if_neg (by simp only [Config.memSize]; omega)]

/-- A step runs `i` exactly when it can fetch and the word there decodes to `i`. -/
theorem runs_iff (s : State) (i : Instr) : runs s i ↔ s.canFetch ∧ decodeWord (fetchedWord s) = i := by
  simp [runs, decodeBytes, fetchedWord]

/-! ## Going on after what may fault -/

theorem orRaise_ok {α : Type} (a : α) (k : α → State) : orRaise (.ok a) k = .next (k a) := rfl

theorem orRaise_error {α : Type} (c : Fault) (k : α → State) : orRaise (.error c) k = .fault c := rfl

/-- An operation that may fault goes on exactly when it succeeds. -/
theorem orRaise_eq_next {α : Type} {r : Except Fault α} {k : α → State} {t : State} :
    orRaise r k = .next t ↔ ∃ a, r = .ok a ∧ k a = t := by
  cases r <;> simp [orRaise, raise]

theorem orRaise_eq_fault {α : Type} {r : Except Fault α} {k : α → State} {c : Fault} :
    orRaise r k = .fault c ↔ r = .error c := by
  cases r <;> simp [orRaise, raise]

theorem orRaise_ne_refused {α : Type} (r : Except Fault α) (k : α → State) (e : Refusal) :
    orRaise r k ≠ .refused e := by
  cases r <;> simp [orRaise, raise]

/-! ## The step -/

/-- With a fault recorded, the step answers it. -/
theorem step_of_fault {s : State} {c : Fault} (h : s.fault = some c) : step s = .fault c := by
  simp [step, h]

/-- Where nothing can be fetched, the step records that. -/
theorem step_of_pc_out {s : State} (h : s.fault = none) (hp : 0xFFE < s.pc.toNat) :
    step s = .next (s.takeFault (.fetchOutOfRange s.pc)) := by
  simp [step, h, fetch_error hp]

/-- Where an instruction can be fetched, the step is that instruction's outcome, finished. -/
theorem step_of_runs {s : State} {i : Instr} (h : runs s i) : step s = finishStep s (exec i s.advancePc) := by
  obtain ⟨⟨hf, hp⟩, hi⟩ := (runs_iff s i).mp h
  simp [step, hf, fetch_ok hp, hi]

/-- Everything a step that answers a next state can have done: recorded the fetch's fault, run an instruction to its
end and ticked the timers, or recorded the instruction's fault. -/
theorem step_cases {s t : State} (h : step s = .next t) :
    (s.fault = none ∧ 0xFFE < s.pc.toNat ∧ t = s.takeFault (.fetchOutOfRange s.pc)) ∨
    (∃ i u, runs s i ∧ exec i s.advancePc = .next u ∧ t = u.tickTimers) ∨
    (∃ i c, runs s i ∧ exec i s.advancePc = .fault c ∧ t = s.takeFault c) := by
  cases hf : s.fault with
  | some c => rw [step_of_fault hf] at h; cases h
  | none =>
    by_cases hp : s.pc.toNat ≤ 0xFFE
    · have hr : runs s (decodeWord (fetchedWord s)) := (runs_iff s _).mpr ⟨⟨hf, hp⟩, rfl⟩
      rw [step_of_runs hr] at h
      cases he : exec (decodeWord (fetchedWord s)) s.advancePc with
      | next u => rw [he] at h; cases h; exact .inr (.inl ⟨_, u, hr, he, rfl⟩)
      | fault c => rw [he] at h; cases h; exact .inr (.inr ⟨_, c, hr, he, rfl⟩)
      | refused r => rw [he] at h; cases h
    · rw [step_of_pc_out hf (by omega)] at h
      cases h
      exact .inl ⟨rfl, by omega, rfl⟩

/-! ## Timers -/

/-- One tick takes one off, and stops at 0. -/
theorem tick_toNat (b : Byte) : (tick b).toNat = b.toNat - 1 := by
  rw [tick]
  split
  · rename_i h
    rw [BitVec.toNat_sub_of_le (by bv_omega)]
    rfl
  · rename_i h
    bv_omega

/-! ## Framebuffer -/

/-- A toggled pixel is inverted, every other is as it was. -/
theorem Framebuffer.pixel_toggle (fb : Framebuffer) (r r' : Fin 32) (c c' : Fin 64) :
    Framebuffer.pixel (Framebuffer.toggle fb r c) r' c' =
      if r' = r ∧ c' = c then !Framebuffer.pixel fb r' c' else Framebuffer.pixel fb r' c' := by
  simp only [Framebuffer.pixel, Framebuffer.toggle, Vector.getElem_set, Fin.ext_iff]
  by_cases hr : r.val = r'.val
  · by_cases hc : c.val = c'.val
    · simp [hr, hc]
    · simp [hr, hc, Ne.symm hc]
  · simp [hr, Ne.symm hr]

theorem Framebuffer.pixel_clear (r : Fin 32) (c : Fin 64) : Framebuffer.pixel Framebuffer.clear r c = false := by
  simp [Framebuffer.pixel, Framebuffer.clear]

/-! ## Keypad -/

/-- The key found is pressed and every lower one is not. -/
theorem State.lowestKey_eq_some {s : State} {k : Fin 16} (h : s.lowestKey = some k) :
    s.keyPressed k = true ∧ ∀ j, j < k → s.keyPressed j = false := by
  obtain ⟨hk, as, bs, heq, hall⟩ := List.find?_eq_some_iff_append.mp h
  refine ⟨hk, fun j hj => ?_⟩
  have hsorted : (List.finRange 16).Pairwise (· < ·) := by decide
  have hmem : j ∈ as ++ k :: bs := heq ▸ List.mem_finRange j
  rw [heq, List.pairwise_append, List.pairwise_cons] at hsorted
  rcases List.mem_append.mp hmem with h1 | h1
  · simpa using hall j h1
  · rcases List.mem_cons.mp h1 with h2 | h2
    · exact absurd (h2 ▸ hj) (lt_irrefl _)
    · exact absurd (hsorted.2.1.1 j h2) (not_lt.mpr (le_of_lt hj))

/-- No key is found exactly when none is pressed. -/
theorem State.lowestKey_eq_none (s : State) : s.lowestKey = none ↔ ∀ k, s.keyPressed k = false := by
  simp [State.lowestKey, List.find?_eq_none]

end Sys2Proof.Machine
end

