-- ==== Sys2Proof/Laws/Exec.lean ====
section
/-! SUPPORT. The instructions that can fault, each said once: when they fault and with what, and what they do else. -/

namespace Sys2Proof.Machine

/-- `LD B, Vx`. -/
theorem exec_ldB (s : State) (x : Reg) : exec (.ldB x) s =
    if 0x1000 < s.i.toNat + 3 then .fault (.memOutOfRange (max s.i.toNat 0x1000))
    else .next (s.setMem (Memory.writeAll s.mem s.i.toNat (decimalDigits (s.readReg x)))) := by
  simp only [exec, execLdB]
  split
  · rw [storeBytes_error _ _ _ (by simp [decimalDigits]) (by simpa [decimalDigits, Config.memSize])]; rfl
  · rw [storeBytes_ok _ _ _ (.inr (by simp [decimalDigits, Config.memSize]; omega))]; rfl

/-- `LD [I], Vx`. -/
theorem exec_ldMemVx (s : State) (x : Reg) : exec (.ldMemVx x) s =
    if 0x1000 < s.i.toNat + (x.val + 1) then .fault (.memOutOfRange (max s.i.toNat 0x1000))
    else .next (s.setMem (Memory.writeAll s.mem s.i.toNat (s.regsUpTo x))) := by
  have hl := s.length_regsUpTo x
  simp only [exec, execLdMemVx]
  split
  · have hne : s.regsUpTo x ≠ [] := by
      intro h
      rw [h] at hl
      simp at hl
    rw [storeBytes_error _ _ _ hne (by rw [hl]; simpa [Config.memSize])]; rfl
  · rw [storeBytes_ok _ _ _ (.inr (by rw [hl]; simp [Config.memSize]; omega))]; rfl

/-- The bytes a block read of `n` at `I` answers. -/
def bytesAtIndex (s : State) (n : Nat) : List Byte := (List.range n).map fun k => Memory.read s.mem (s.i.toNat + k)

/-- `LD Vx, [I]`. -/
theorem exec_ldVxMem (s : State) (x : Reg) : exec (.ldVxMem x) s =
    if 0x1000 < s.i.toNat + (x.val + 1) then .fault (.memOutOfRange (max s.i.toNat 0x1000))
    else .next (s.writeRegsFrom0 (bytesAtIndex s (x.val + 1))) := by
  simp only [exec, execLdVxMem]
  split
  · rw [loadBytes_error _ _ _ (by omega) (by simpa [Config.memSize])]; rfl
  · rw [loadBytes_ok _ _ _ (.inr (by simp [Config.memSize]; omega))]; rfl

/-- What `DRW` draws. -/
def drawn (s : State) (x y : Reg) (n : Nibble) : Drawing :=
  drawSprite ((s.readReg x).toNat % 64) ((s.readReg y).toNat % 32) (bytesAtIndex s n.toNat) (s.fb, false)

/-- `DRW Vx, Vy, n`. -/
theorem exec_drw (s : State) (x y : Reg) (n : Nibble) : exec (.drw x y n) s =
    if 0 < n.toNat ∧ 0x1000 < s.i.toNat + n.toNat then .fault (.memOutOfRange (max s.i.toNat 0x1000))
    else .next ((s.setFb (drawn s x y n).1).writeFlag (drawn s x y n).2) := by
  simp only [exec, execDrw]
  split
  · rename_i h
    rw [loadBytes_error _ _ _ h.1 (by simpa [Config.memSize] using h.2)]; rfl
  · rw [loadBytes_ok _ _ _ (by simp [Config.memSize]; omega)]; rfl

/-- What follows a key index. -/
theorem orRaise_keyIndex (b : Byte) (k : Fin 16 → State) : orRaise (keyIndex b) k =
    if h : b.toNat < 16 then .next (k ⟨b.toNat, h⟩) else .fault (.keyIndexOutOfRange b) := by
  unfold keyIndex
  split <;> rfl

/-- `SKP Vx`. -/
theorem exec_skp (s : State) (x : Reg) : exec (.skp x) s =
    if h : (s.readReg x).toNat < 16 then .next (s.skipIf (s.keyPressed ⟨(s.readReg x).toNat, h⟩))
    else .fault (.keyIndexOutOfRange (s.readReg x)) :=
  orRaise_keyIndex _ _

/-- `SKNP Vx`. -/
theorem exec_sknp (s : State) (x : Reg) : exec (.sknp x) s =
    if h : (s.readReg x).toNat < 16 then .next (s.skipIf (!s.keyPressed ⟨(s.readReg x).toNat, h⟩))
    else .fault (.keyIndexOutOfRange (s.readReg x)) :=
  orRaise_keyIndex _ _

end Sys2Proof.Machine
end

