-- ==== Sys2Proof/Laws/PerInstr.lean ====
section
/-! SUPPORT. Per instruction: its opcode, under the mask of its row of 30_encoding.md R75, is the row's pattern. -/

namespace Sys2Proof.Laws.RowOfEncoding

/-- The mask and the pattern of an instruction's row, from spec/opcode_table.json. -/
def row : Instr → Word × Word
  | .cls => (0xFFFF#16, 0x00E0#16)
  | .ret => (0xFFFF#16, 0x00EE#16)
  | .sys _ => (0xF000#16, 0x0000#16)
  | .jp _ => (0xF000#16, 0x1000#16)
  | .call _ => (0xF000#16, 0x2000#16)
  | .seImm _ _ => (0xF000#16, 0x3000#16)
  | .sneImm _ _ => (0xF000#16, 0x4000#16)
  | .seReg _ _ => (0xF00F#16, 0x5000#16)
  | .ldImm _ _ => (0xF000#16, 0x6000#16)
  | .addImm _ _ => (0xF000#16, 0x7000#16)
  | .ldReg _ _ => (0xF00F#16, 0x8000#16)
  | .orReg _ _ => (0xF00F#16, 0x8001#16)
  | .andReg _ _ => (0xF00F#16, 0x8002#16)
  | .xorReg _ _ => (0xF00F#16, 0x8003#16)
  | .addReg _ _ => (0xF00F#16, 0x8004#16)
  | .subReg _ _ => (0xF00F#16, 0x8005#16)
  | .shr _ _ => (0xF00F#16, 0x8006#16)
  | .subn _ _ => (0xF00F#16, 0x8007#16)
  | .shl _ _ => (0xF00F#16, 0x800E#16)
  | .sneReg _ _ => (0xF00F#16, 0x9000#16)
  | .ldI _ => (0xF000#16, 0xA000#16)
  | .jpV0 _ => (0xF000#16, 0xB000#16)
  | .rnd _ _ => (0xF000#16, 0xC000#16)
  | .drw _ _ _ => (0xF000#16, 0xD000#16)
  | .skp _ => (0xF0FF#16, 0xE09E#16)
  | .sknp _ => (0xF0FF#16, 0xE0A1#16)
  | .ldVxDT _ => (0xF0FF#16, 0xF007#16)
  | .ldVxK _ => (0xF0FF#16, 0xF00A#16)
  | .ldDTVx _ => (0xF0FF#16, 0xF015#16)
  | .ldSTVx _ => (0xF0FF#16, 0xF018#16)
  | .addI _ => (0xF0FF#16, 0xF01E#16)
  | .ldF _ => (0xF0FF#16, 0xF029#16)
  | .ldB _ => (0xF0FF#16, 0xF033#16)
  | .ldMemVx _ => (0xF0FF#16, 0xF055#16)
  | .ldVxMem _ => (0xF0FF#16, 0xF065#16)
  | .unrecognised _ => (0x0000#16, 0x0000#16)

/-- The bits of the opcode that the row fixes are the row's. -/
def Statement (i : Instr) : Prop := encode i &&& (row i).1 = (row i).2

theorem cls : Statement .cls :=
  rfl

theorem ret : Statement .ret :=
  rfl

theorem sys (nnn : Addr12) : Statement (.sys nnn) :=
  (and_F000_eq _ 0x0#4).mpr (fieldF_formNNN _ _)

theorem jp (nnn : Addr12) : Statement (.jp nnn) :=
  (and_F000_eq _ 0x1#4).mpr (fieldF_formNNN _ _)

theorem call (nnn : Addr12) : Statement (.call nnn) :=
  (and_F000_eq _ 0x2#4).mpr (fieldF_formNNN _ _)

theorem seImm (x : Reg) (kk : Byte) : Statement (.seImm x kk) :=
  (and_F000_eq _ 0x3#4).mpr (fieldF_formXKK _ _ _)

theorem sneImm (x : Reg) (kk : Byte) : Statement (.sneImm x kk) :=
  (and_F000_eq _ 0x4#4).mpr (fieldF_formXKK _ _ _)

theorem seReg (x : Reg) (y : Reg) : Statement (.seReg x y) :=
  (and_F00F_eq _ 0x5#4 0x0#4).mpr ⟨fieldF_formXYN _ _ _ _, fieldN_formXYN _ _ _ _⟩

theorem ldImm (x : Reg) (kk : Byte) : Statement (.ldImm x kk) :=
  (and_F000_eq _ 0x6#4).mpr (fieldF_formXKK _ _ _)

theorem addImm (x : Reg) (kk : Byte) : Statement (.addImm x kk) :=
  (and_F000_eq _ 0x7#4).mpr (fieldF_formXKK _ _ _)

theorem ldReg (x : Reg) (y : Reg) : Statement (.ldReg x y) :=
  (and_F00F_eq _ 0x8#4 0x0#4).mpr ⟨fieldF_formXYN _ _ _ _, fieldN_formXYN _ _ _ _⟩

theorem orReg (x : Reg) (y : Reg) : Statement (.orReg x y) :=
  (and_F00F_eq _ 0x8#4 0x1#4).mpr ⟨fieldF_formXYN _ _ _ _, fieldN_formXYN _ _ _ _⟩

theorem andReg (x : Reg) (y : Reg) : Statement (.andReg x y) :=
  (and_F00F_eq _ 0x8#4 0x2#4).mpr ⟨fieldF_formXYN _ _ _ _, fieldN_formXYN _ _ _ _⟩

theorem xorReg (x : Reg) (y : Reg) : Statement (.xorReg x y) :=
  (and_F00F_eq _ 0x8#4 0x3#4).mpr ⟨fieldF_formXYN _ _ _ _, fieldN_formXYN _ _ _ _⟩

theorem addReg (x : Reg) (y : Reg) : Statement (.addReg x y) :=
  (and_F00F_eq _ 0x8#4 0x4#4).mpr ⟨fieldF_formXYN _ _ _ _, fieldN_formXYN _ _ _ _⟩

theorem subReg (x : Reg) (y : Reg) : Statement (.subReg x y) :=
  (and_F00F_eq _ 0x8#4 0x5#4).mpr ⟨fieldF_formXYN _ _ _ _, fieldN_formXYN _ _ _ _⟩

theorem shr (x : Reg) (y : Reg) : Statement (.shr x y) :=
  (and_F00F_eq _ 0x8#4 0x6#4).mpr ⟨fieldF_formXYN _ _ _ _, fieldN_formXYN _ _ _ _⟩

theorem subn (x : Reg) (y : Reg) : Statement (.subn x y) :=
  (and_F00F_eq _ 0x8#4 0x7#4).mpr ⟨fieldF_formXYN _ _ _ _, fieldN_formXYN _ _ _ _⟩

theorem shl (x : Reg) (y : Reg) : Statement (.shl x y) :=
  (and_F00F_eq _ 0x8#4 0xE#4).mpr ⟨fieldF_formXYN _ _ _ _, fieldN_formXYN _ _ _ _⟩

theorem sneReg (x : Reg) (y : Reg) : Statement (.sneReg x y) :=
  (and_F00F_eq _ 0x9#4 0x0#4).mpr ⟨fieldF_formXYN _ _ _ _, fieldN_formXYN _ _ _ _⟩

theorem ldI (nnn : Addr12) : Statement (.ldI nnn) :=
  (and_F000_eq _ 0xA#4).mpr (fieldF_formNNN _ _)

theorem jpV0 (nnn : Addr12) : Statement (.jpV0 nnn) :=
  (and_F000_eq _ 0xB#4).mpr (fieldF_formNNN _ _)

theorem rnd (x : Reg) (kk : Byte) : Statement (.rnd x kk) :=
  (and_F000_eq _ 0xC#4).mpr (fieldF_formXKK _ _ _)

theorem drw (x : Reg) (y : Reg) (n : Nibble) : Statement (.drw x y n) :=
  (and_F000_eq _ 0xD#4).mpr (fieldF_formXYN _ _ _ _)

theorem skp (x : Reg) : Statement (.skp x) :=
  (and_F0FF_eq _ 0xE#4 0x9E#8).mpr ⟨fieldF_formXKK _ _ _, fieldKK_formXKK _ _ _⟩

theorem sknp (x : Reg) : Statement (.sknp x) :=
  (and_F0FF_eq _ 0xE#4 0xA1#8).mpr ⟨fieldF_formXKK _ _ _, fieldKK_formXKK _ _ _⟩

theorem ldVxDT (x : Reg) : Statement (.ldVxDT x) :=
  (and_F0FF_eq _ 0xF#4 0x07#8).mpr ⟨fieldF_formXKK _ _ _, fieldKK_formXKK _ _ _⟩

theorem ldVxK (x : Reg) : Statement (.ldVxK x) :=
  (and_F0FF_eq _ 0xF#4 0x0A#8).mpr ⟨fieldF_formXKK _ _ _, fieldKK_formXKK _ _ _⟩

theorem ldDTVx (x : Reg) : Statement (.ldDTVx x) :=
  (and_F0FF_eq _ 0xF#4 0x15#8).mpr ⟨fieldF_formXKK _ _ _, fieldKK_formXKK _ _ _⟩

theorem ldSTVx (x : Reg) : Statement (.ldSTVx x) :=
  (and_F0FF_eq _ 0xF#4 0x18#8).mpr ⟨fieldF_formXKK _ _ _, fieldKK_formXKK _ _ _⟩

theorem addI (x : Reg) : Statement (.addI x) :=
  (and_F0FF_eq _ 0xF#4 0x1E#8).mpr ⟨fieldF_formXKK _ _ _, fieldKK_formXKK _ _ _⟩

theorem ldF (x : Reg) : Statement (.ldF x) :=
  (and_F0FF_eq _ 0xF#4 0x29#8).mpr ⟨fieldF_formXKK _ _ _, fieldKK_formXKK _ _ _⟩

theorem ldB (x : Reg) : Statement (.ldB x) :=
  (and_F0FF_eq _ 0xF#4 0x33#8).mpr ⟨fieldF_formXKK _ _ _, fieldKK_formXKK _ _ _⟩

theorem ldMemVx (x : Reg) : Statement (.ldMemVx x) :=
  (and_F0FF_eq _ 0xF#4 0x55#8).mpr ⟨fieldF_formXKK _ _ _, fieldKK_formXKK _ _ _⟩

theorem ldVxMem (x : Reg) : Statement (.ldVxMem x) :=
  (and_F0FF_eq _ 0xF#4 0x65#8).mpr ⟨fieldF_formXKK _ _ _, fieldKK_formXKK _ _ _⟩

theorem unrecognised (op : Word) : Statement (.unrecognised op) :=
  BitVec.and_zero

end Sys2Proof.Laws.RowOfEncoding
end

