-- ==== Sys2Proof/Tests/Slice0.lean ====
section
/-! SUPPORT. Tests. Expected values are those of spec/95_test_vectors.md (its ids in the comments) and words written
out from 30_encoding.md R75. -/

namespace Sys2Proof.Tests

open Sys2Proof.Machine

/-- Reset, with the opcode `op` at 0x200. -/
def start (op : Nat) : State := State.reset.withFetchWord 16 op

/-- The state after one step. -/
def after (s : State) : State := nextOr s (step s)

/-- A byte put in memory. -/
def poke (s : State) (a : Nat) (b : Byte) : State := s.setMem (Memory.write s.mem a b)

/-- The keypad with only key `k` pressed. -/
def onlyKey (k : Nat) : Vector Bool 16 := Vector.ofFn fun j => j.val == k

/-! ## WellFormed: an ill-formed term for each check, refused -/

theorem test_wf_sys_not_cls : (Instr.sys 0x0E0#12).wellFormed = false := by decide
theorem test_wf_sys_not_ret : (Instr.sys 0x0EE#12).wellFormed = false := by decide
theorem test_wf_unrecognised_5 : (Instr.unrecognised 0x5120#16).wellFormed = false := by decide
theorem test_wf_unrecognised_8 : (Instr.unrecognised 0x8124#16).wellFormed = false := by decide
theorem test_wf_unrecognised_9 : (Instr.unrecognised 0x9120#16).wellFormed = false := by decide
theorem test_wf_unrecognised_E : (Instr.unrecognised 0xE59E#16).wellFormed = false := by decide
theorem test_wf_unrecognised_F : (Instr.unrecognised 0xF065#16).wellFormed = false := by decide
theorem test_wf_unrecognised_other : (Instr.unrecognised 0x1234#16).wellFormed = false := by decide

/-! ## Decoding: the words of 30_encoding.md R75 and R76, written out -/

theorem test_decode_control :
    [0x00E0#16, 0x00EE#16, 0x0123#16, 0x1234#16, 0x2400#16, 0x3142#16, 0x4143#16, 0x5230#16, 0x9230#16, 0xB300#16].map
      decodeWord =
    [.cls, .ret, .sys 0x123#12, .jp 0x234#12, .call 0x400#12, .seImm 1 0x42#8, .sneImm 1 0x43#8, .seReg 2 3,
      .sneReg 2 3, .jpV0 0x300#12] := by decide

theorem test_decode_arith :
    [0x6005#16, 0x7320#16, 0x8120#16, 0x8011#16, 0x8012#16, 0x8013#16, 0x8014#16, 0x8F15#16, 0x8016#16, 0x8AB7#16,
      0x800E#16, 0xC30F#16].map decodeWord =
    [.ldImm 0 0x05#8, .addImm 3 0x20#8, .ldReg 1 2, .orReg 0 1, .andReg 0 1, .xorReg 0 1, .addReg 0 1, .subReg 15 1,
      .shr 0 1, .subn 10 11, .shl 0 0, .rnd 3 0x0F#8] := by decide

theorem test_decode_display_memory :
    [0xD125#16, 0xA300#16, 0xF21E#16, 0xF129#16, 0xFA33#16, 0xF255#16, 0xF265#16].map decodeWord =
    [.drw 1 2 5#4, .ldI 0x300#12, .addI 2, .ldF 1, .ldB 10, .ldMemVx 2, .ldVxMem 2] := by decide

theorem test_decode_timer_input :
    [0xE59E#16, 0xE5A1#16, 0xF407#16, 0xF50A#16, 0xF315#16, 0xF018#16].map decodeWord =
    [.skp 5, .sknp 5, .ldVxDT 4, .ldVxK 5, .ldDTVx 3, .ldSTVx 0] := by decide

/-- S2 to S7: opcodes next to an instruction's that are none. -/
theorem test_decode_unrecognised :
    [0xFFFF#16, 0x5121#16, 0x8008#16, 0xE0FF#16, 0xF0FF#16, 0x9121#16].map decodeWord =
    [.unrecognised 0xFFFF#16, .unrecognised 0x5121#16, .unrecognised 0x8008#16, .unrecognised 0xE0FF#16,
      .unrecognised 0xF0FF#16, .unrecognised 0x9121#16] := by decide

theorem test_decode_bytes_big_endian :
    decodeBytes [0x12#8, 0x34#8, 0x56#8] = .ok (.jp 0x234#12, [0x56#8]) := by rfl
theorem test_decode_bytes_truncated : decodeBytes [0x12#8] = .error .truncated := by rfl
theorem test_decode_table_word : decodeTableWord 16 0x8014 = some (.addReg 0 1) := by decide
theorem test_encode_words :
    [encode (.addReg 0 1), encode (.ldImm 1 0x03#8), encode (.drw 1 2 5#4), encode (.skp 5)] =
    [0x8014#16, 0x6103#16, 0xD125#16, 0xE59E#16] := by decide

/-! ## The step -/

/-- S8 -/
theorem test_step_odd_pc : (after (poke (poke (State.reset.setPc 0x201#16) 0x201 0x60#8) 0x202 0x2A#8)).pc = 0x203#16 := by
  decide
/-- S9 -/
theorem test_step_ticks : (after (((start 0x0000).setDt 1#8).setSt 3#8)).dt = 0#8 := by decide
/-- S12 -/
theorem test_step_fetch_fault :
    (after (State.reset.setPc 0xFFF#16)).fault = some (.fetchOutOfRange 0xFFF#16) := by decide
/-- S13 -/
theorem test_step_recorded_fault :
    step ((start 0x0000).setFault (some (.fetchOutOfRange 0xFFF#16))) = .fault (.fetchOutOfRange 0xFFF#16) := by rfl

/-! ## Control flow -/

/-- CF1 -/
theorem test_cls : Framebuffer.pixel (after ((start 0x00E0).setFb
    (Framebuffer.toggle Framebuffer.clear 5 5))).fb 5 5 = false := by decide
/-- CF2 -/
theorem test_ret : (after (((start 0x00EE).setSp 1).setSlot 0 0x206#16)).pc = 0x206#16 := by decide
/-- CF3 -/
theorem test_ret_underflow : (after ((start 0x00EE).setSlot 15 0x3A0#16)).sp = 15 := by decide
/-- CF25 -/
theorem test_sys : (after (start 0x0123)).pc = 0x202#16 := by decide
/-- CF5 -/
theorem test_jp : (after (start 0x1234)).pc = 0x234#16 := by decide
/-- CF8 -/
theorem test_call : (after (start 0x2400)).stack[0] = 0x202#16 := by decide
/-- CF9 -/
theorem test_call_overflow : (after ((start 0x2400).setSp 15)).sp = 0 := by decide
/-- CF10, CF11 -/
theorem test_se_imm : (after ((start 0x3142).writeReg 1 0x42#8)).pc = 0x204#16 := by decide
theorem test_se_imm_not : (after ((start 0x3143).writeReg 1 0x42#8)).pc = 0x202#16 := by decide
/-- CF13, CF14 -/
theorem test_sne_imm : (after ((start 0x4143).writeReg 1 0x42#8)).pc = 0x204#16 := by decide
theorem test_sne_imm_not : (after ((start 0x4142).writeReg 1 0x42#8)).pc = 0x202#16 := by decide
/-- CF15, CF16 -/
theorem test_se_reg : (after (((start 0x5230).writeReg 2 7#8).writeReg 3 7#8)).pc = 0x204#16 := by decide
theorem test_se_reg_not : (after (((start 0x5230).writeReg 2 7#8).writeReg 3 8#8)).pc = 0x202#16 := by decide
/-- CF18, CF19 -/
theorem test_sne_reg : (after (((start 0x9230).writeReg 2 7#8).writeReg 3 8#8)).pc = 0x204#16 := by decide
theorem test_sne_reg_not : (after (((start 0x9230).writeReg 2 7#8).writeReg 3 7#8)).pc = 0x202#16 := by decide
/-- CF22 -/
theorem test_jp_v0 : (after ((start 0xBFFF).writeReg 0 0xFF#8)).pc = 0x10FE#16 := by decide
/-- CF24 -/
theorem test_jp_v0_not_vx : (after ((start 0xB500).writeReg 5 9#8)).pc = 0x500#16 := by decide
/-- S2 -/
theorem test_unrecognised : (after (start 0xFFFF)).pc = 0x202#16 := by decide

/-! ## Arithmetic and logic -/

/-- A1 -/
theorem test_ld_imm : (after (start 0x6A5C)).readReg 10 = 0x5C#8 := by decide
/-- A3 -/
theorem test_ld_reg : (after ((start 0x8010).writeReg 1 0x9C#8)).readReg 0 = 0x9C#8 := by decide
/-- A4, A5 -/
theorem test_add_imm_wraps : (after ((start 0x7001).writeReg 0 0xFF#8)).readReg 0 = 0x00#8 := by decide
theorem test_add_imm_no_flag : (after (((start 0x7020).writeReg 0 0x10#8).writeReg 15 1#8)).readReg 15 = 1#8 := by decide
/-- A6 -/
theorem test_or : (after (((start 0x8011).writeReg 0 0x0F#8).writeReg 1 0xF0#8)).readReg 0 = 0xFF#8 := by decide
theorem test_or_keeps_vf : (after ((start 0x8011).writeReg 15 5#8)).readReg 15 = 5#8 := by decide
/-- A7 -/
theorem test_and : (after (((start 0x8012).writeReg 0 0x3C#8).writeReg 1 0x0F#8)).readReg 0 = 0x0C#8 := by decide
/-- A8 -/
theorem test_xor : (after (((start 0x8013).writeReg 0 0xFF#8).writeReg 1 0x0F#8)).readReg 0 = 0xF0#8 := by decide
/-- A13, A14 -/
theorem test_add_flag_last : (after (((start 0x8F14).writeReg 15 0xFF#8).writeReg 1 1#8)).readReg 15 = 1#8 := by decide
theorem test_add_old_vf : (after (((start 0x80F4).writeReg 0 1#8).writeReg 15 0xFF#8)).readReg 0 = 0#8 := by decide
/-- A16, A17 -/
theorem test_sub_borrow : (after (((start 0x8015).writeReg 0 0#8).writeReg 1 1#8)).readReg 0 = 0xFF#8 := by decide
theorem test_sub_flag_last : (after (((start 0x8F15).writeReg 15 3#8).writeReg 1 5#8)).readReg 15 = 0#8 := by decide
/-- A18, A20 -/
theorem test_subn : (after (((start 0x8017).writeReg 0 0x0A#8).writeReg 1 5#8)).readReg 0 = 0xFB#8 := by decide
theorem test_subn_equal : (after (((start 0x8017).writeReg 0 7#8).writeReg 1 7#8)).readReg 15 = 1#8 := by decide
/-- A23 -/
theorem test_shr : (after (((start 0x8016).writeReg 0 5#8).writeReg 1 0xFF#8)).readReg 0 = 2#8 := by decide
theorem test_shr_flag : (after (((start 0x8016).writeReg 0 5#8).writeReg 1 0xFF#8)).readReg 15 = 1#8 := by decide
/-- A25, A26 -/
theorem test_shl : (after ((start 0x800E).writeReg 0 0x81#8)).readReg 0 = 2#8 := by decide
theorem test_shl_no_flag : (after ((start 0x800E).writeReg 0 0x40#8)).readReg 15 = 0#8 := by decide
/-- A29 to A31: the draw is free, so only that one was taken and that VF stays -/
theorem test_rnd_takes_one : (after (start 0xC30F)).draws = 1 := by decide
theorem test_rnd_keeps_vf : (after ((start 0xC30F).writeReg 15 7#8)).readReg 15 = 7#8 := by decide

/-! ## Display -/

/-- DR3 -/
theorem test_drw_wraps : Framebuffer.pixel
    (after (poke (((start 0xD011).setI 0x300#16).writeReg 0 0x3C#8) 0x300 0xFF#8)).fb 0 3 = true := by decide
/-- DR7 -/
theorem test_drw_collision_sticky : (after (poke (poke (((start 0xD012).setI 0x300#16).setFb
    (Framebuffer.toggle Framebuffer.clear 0 0)) 0x300 0x80#8) 0x301 0x80#8)).readReg 15 = 1#8 := by decide

/-! ## Memory operations -/

/-- M1 -/
theorem test_ld_i : (after (start 0xA300)).i = 0x300#16 := by decide
/-- M4, M5 -/
theorem test_add_i : (after (((start 0xF01E).setI 0x0FFF#16).writeReg 0 1#8)).i = 0x1000#16 := by decide
theorem test_add_i_wraps : (after (((start 0xF11E).setI 0xFFFF#16).writeReg 1 1#8)).i = 0#16 := by decide
/-- M6, M7 -/
theorem test_ld_f : (after ((start 0xF129).writeReg 1 0x1A#8)).i = 0x082#16 := by decide
theorem test_ld_f_last : (after ((start 0xF029).writeReg 0 0x0F#8)).i = 0x09B#16 := by decide
/-- M10, M11 -/
theorem test_ld_b : (List.range 3).map (fun k => Memory.read
    (after (((start 0xF033).setI 0x300#16).writeReg 0 42#8)).mem (0x300 + k)) = [0#8, 4#8, 2#8] := by decide
theorem test_ld_b_fault : (after (((start 0xF033).setI 0xFFE#16).writeReg 0 0xFF#8)).fault =
    some (.memOutOfRange 0x1000) := by decide
/-- M12, M18 -/
theorem test_ld_mem_vx : Memory.read
    (after ((((start 0xF255).setI 0x300#16).writeReg 2 3#8).writeReg 1 2#8)).mem 0x302 = 3#8 := by decide
theorem test_ld_mem_vx_fault_writes_nothing : Memory.read
    (after (((start 0xF255).setI 0xFFE#16).writeReg 1 7#8)).mem 0xFFF = 0#8 := by decide
/-- M15, M17 -/
theorem test_ld_vx_mem_keeps_above : (after (((start 0xF265).setI 0x300#16).writeReg 3 0x77#8)).readReg 3 = 0x77#8 := by
  decide
theorem test_ld_vx_mem_font : (after ((start 0xF265).setI 0x050#16)).readReg 1 = 0x90#8 := by decide

/-! ## Timers and input -/

/-- T10 -/
theorem test_ld_vx_dt : (after ((start 0xF407).setDt 5#8)).readReg 4 = 5#8 := by decide
/-- T12 -/
theorem test_ld_dt_vx : (after ((start 0xF315).writeReg 3 5#8)).dt = 4#8 := by decide
/-- T14 -/
theorem test_ld_st_vx : (after ((start 0xF018).writeReg 0 3#8)).st = 2#8 := by decide
/-- T16, T20 -/
theorem test_skp : (after (((start 0xE59E).writeReg 5 7#8).setKeys (onlyKey 7))).pc = 0x204#16 := by decide
theorem test_skp_fault : (after ((start 0xE09E).writeReg 0 0x10#8)).fault = some (.keyIndexOutOfRange 0x10#8) := by decide
/-- T18, T19 -/
theorem test_sknp : (after ((start 0xE5A1).writeReg 5 7#8)).pc = 0x204#16 := by decide
theorem test_sknp_not : (after (((start 0xE5A1).writeReg 5 7#8).setKeys (onlyKey 7))).pc = 0x202#16 := by decide
/-- T22, T23 -/
theorem test_ld_vx_k_waits : (after (start 0xF50A)).pc = 0x200#16 := by decide
theorem test_ld_vx_k_lowest : (after ((start 0xF50A).setKeys
    (Vector.ofFn fun j => j.val == 3 || j.val == 9))).readReg 5 = 3#8 := by decide

/-! ## Ports -/

/-- H3, H4 -/
theorem test_load_image_end : Memory.read
    (transact State.reset (.loadImage [0xAA#8, 0xBB#8] 4094)).1.mem 0xFFF = 0xBB#8 := by decide
theorem test_load_image_out : (transact State.reset (.loadImage [0xAA#8, 0xBB#8] 4095)).2 =
    .loadFailed .loadOutOfBounds := by decide
/-- H10 -/
theorem test_step_port_faulted :
    (stepPort (after (State.reset.setPc 0xFFF#16))).2 = .err (.fetchOutOfRange 0xFFF#16) := by decide

/-! ## Witnesses: for each statement with hypotheses, a state and operands that meet them, at a boundary where a
clause has one -/

/-- The step from `s` returns `Ok`. -/
def completesAt (s : State) : Bool :=
  match step s with
  | .next t => t.fault == none
  | _ => false

theorem completes_of_completesAt {s : State} (h : completesAt s = true) : completes s (after s) := by
  unfold completesAt at h
  unfold completes after
  split at h
  · rename_i t ht
    rw [ht]
    exact ⟨rfl, by simpa [nextOr] using h⟩
  · cases h

/-- One opcode of every row of spec/opcode_table.json, in the table's order. -/
def sampleOpcodes : List Nat :=
  [0x00E0, 0x00EE, 0x0123, 0x1234, 0x2400, 0x3142, 0x4143, 0x5230, 0x6005, 0x7320, 0x8120, 0x8011, 0x8012, 0x8013,
   0x8014, 0x8F15, 0x8016, 0x8AB7] ++
  [0x800E, 0x9230, 0xA300, 0xB300, 0xC30F, 0xD125, 0xE59E, 0xE5A1, 0xF407, 0xF50A, 0xF315, 0xF018, 0xF21E, 0xF129,
   0xFA33, 0xF255, 0xF265, 0xFFFF]

/-- Every instruction is one that some step runs to its end: hypotheses `runs s i` and `completes s t` of
TimersTickOncePerCompletedStep and NextPcOfEveryInstruction, for every arm. -/
theorem witness_every_instruction_completes :
    sampleOpcodes.all (fun op => completesAt (start op)) = true := by decide

theorem witness_every_instruction_runs :
    ∀ op ∈ sampleOpcodes, runs (start op) (decodeWord (BitVec.ofNat 16 op)) := by
  unfold runs State.canFetch; decide

theorem witness_DecodeUndoesEncode :
    (Instr.sys 0x0E1#12).wellFormed = true ∧ (Instr.unrecognised 0x5121#16).wellFormed = true ∧
      (Instr.drw 15 15 15#4).wellFormed = true := by decide
theorem witness_RowsOverlapOnlyAtSys :
    (opcodeTable[1]?.map (·.selects 0x00EE#16), opcodeTable[2]?.map (·.selects 0x00EE#16)) = (some true, some true) := by
  decide
theorem witness_opcodes_families :
    (0x6005#16).toNat / 4096 = 0x6 ∧ (0x8014#16).toNat / 4096 = 0x8 ∧ (0x8014#16).toNat % 16 = 0x4 ∧
      (0xF029#16).toNat / 4096 = 0xF ∧ (0xF029#16).toNat % 256 = 0x29 ∧ (0x5121#16).toNat % 16 ≠ 0 := by decide
/-- Every family of opcodes that a statement names has a member, at the ends of its operands' ranges. -/
theorem witness_families_of_statements :
    (0x1FFF#16).toNat / 4096 = 0x1 ∧ (0xAFFF#16).toNat / 4096 = 0xA ∧ (0x3F00#16).toNat / 4096 = 0x3 ∧
      (0x40FF#16).toNat / 4096 = 0x4 ∧ (0x7FFF#16).toNat / 4096 = 0x7 ∧
      ((0x5FF0#16).toNat / 4096 = 0x5 ∧ (0x5FF0#16).toNat % 16 = 0) ∧
      ((0x9000#16).toNat / 4096 = 0x9 ∧ (0x9000#16).toNat % 16 = 0) ∧
      ((0x80F0#16).toNat / 4096 = 0x8 ∧ (0x80F0#16).toNat % 16 = 0) ∧
      [0xFF07, 0xF015, 0xFF18, 0xF00A, 0xFF29].map (fun w => ((BitVec.ofNat 16 w).toNat / 4096, w % 256)) =
        [(0xF, 0x07), (0xF, 0x15), (0xF, 0x18), (0xF, 0x0A), (0xF, 0x29)] := by decide
theorem witness_FetchIsBigEndianOrFaults :
    (State.reset.setPc 0xFFE#16).pc.toNat ≤ 0xFFE ∧ 0xFFE < (State.reset.setPc 0xFFF#16).pc.toNat ∧
      (State.reset.setPc 0xFFF#16).fault = none := by decide
theorem witness_StepRunsDecodedInstruction :
    runs (start 0x6005) (.ldImm 0 5#8) ∧
      exec (.ldImm 0 5#8) (start 0x6005).atNext = .next ((start 0x6005).atNext.writeReg 0 5#8) ∧
      runs ((start 0xE09E).writeReg 0 16#8) (.skp 0) ∧
      exec (.skp 0) ((start 0xE09E).writeReg 0 16#8).atNext = .fault (.keyIndexOutOfRange 16#8) :=
  ⟨⟨⟨rfl, by decide⟩, rfl⟩, rfl, ⟨⟨rfl, by decide⟩, rfl⟩, rfl⟩
theorem witness_PlacedOpcodeRunsNext :
    (State.reset.setPc 0xFFE#16).canFetch ∧ Memory.wf (State.reset.setPc 0xFFE#16).mem = true ∧ 65535 < 65536 :=
  ⟨⟨rfl, by decide⟩, rfl, by decide⟩
theorem witness_EveryStepHasNextState : (State.reset.setPc 0xFFFF#16).fault = none := rfl

/-- A step that faults: `LD V0, [I]` at `I` = 0x1000, the lowest address out of range. -/
theorem witness_faulting_step :
    runs ((start 0xF065).setI 0x1000#16) (.ldVxMem 0) ∧ ((start 0xF065).setI 0x1000#16).fault = none ∧
      step ((start 0xF065).setI 0x1000#16) =
        .next (((start 0xF065).setI 0x1000#16).setFault (some (.memOutOfRange 0x1000))) :=
  ⟨⟨⟨rfl, by decide⟩, rfl⟩, rfl, rfl⟩
/-- The first key index out of range; 15 and `I` = 0xFFF fault no more. -/
theorem witness_FaultsExactlyWhenOutOfRange :
    (after ((start 0xE09E).writeReg 0 16#8)).fault = some (.keyIndexOutOfRange 16#8) ∧
      (after ((start 0xE0A1).writeReg 0 15#8)).fault = none ∧ (after ((start 0xF065).setI 0xFFF#16)).fault = none ∧
      (after ((start 0xD010).setI 0x1000#16)).fault = none := by decide
theorem witness_FaultingStepChangesOnlyFaultStatus :
    (after (State.reset.setPc 0xFFF#16)).fault = some (.fetchOutOfRange 0xFFF#16) ∧
      step (State.reset.setPc 0xFFF#16) = .next (after (State.reset.setPc 0xFFF#16)) := ⟨by decide, rfl⟩
theorem witness_RecordedFaultIsAnsweredForEver :
    (State.reset.setFault (some (.memOutOfRange 0x1000))).fault = some (.memOutOfRange 0x1000) := rfl

/-- A state with a call at `PC` meets the invariant, and steps. -/
theorem witness_StepKeepsInvariant : Inv (start 0x2400) ∧ step (start 0x2400) = .next (after (start 0x2400)) :=
  ⟨⟨by decide, by decide, by decide, trivial⟩, rfl⟩
/-- So does a faulted one. -/
theorem witness_HostRunKeepsInvariant :
    Inv ((State.reset.setPc 0x10FE#16).setFault (some (.fetchOutOfRange 0x10FE#16))) :=
  ⟨by decide, by decide, by decide, rfl, by decide⟩
theorem witness_CanonicalMemoryIsUnique :
    Memory.wf [(0x050, 0#8), (0x300, 1#8), (0xFFF, 2#8)] = true ∧ ∀ a, Memory.read [(0x300, 1#8)] a =
      Memory.read [(0x300, 1#8)] a := ⟨by decide, fun _ => rfl⟩
theorem witness_StepWritesOnlyItsRegisters :
    runs (start 0xF365) (.ldVxMem 3) ∧ step (start 0xF365) = .next (after (start 0xF365)) ∧
      (4 : Reg) ∉ writtenRegs (.ldVxMem 3) := ⟨⟨⟨rfl, by decide⟩, rfl⟩, rfl, by decide⟩
theorem witness_StepStoresOnlyAtIndex :
    runs ((start 0xFF55).setI 0xFF0#16) (.ldMemVx 15) ∧ Memory.wf ((start 0xFF55).setI 0xFF0#16).mem = true ∧
      step ((start 0xFF55).setI 0xFF0#16) = .next (after ((start 0xFF55).setI 0xFF0#16)) :=
  ⟨⟨⟨rfl, by decide⟩, rfl⟩, by decide, rfl⟩
theorem witness_whole_machine_rules :
    runs (start 0x6005) (.ldImm 0 5#8) ∧ step (start 0x6005) = .next (after (start 0x6005)) ∧
      Instr.ldImm 0 5#8 ≠ .cls ∧ (∀ x y n, Instr.ldImm 0 5#8 ≠ .drw x y n) ∧ (∀ nnn, Instr.ldImm 0 5#8 ≠ .call nnn) ∧
      (∀ nnn, Instr.ldImm 0 5#8 ≠ .ldI nnn) ∧ (∀ x, Instr.ldImm 0 5#8 ≠ .addI x) ∧ (∀ x, Instr.ldImm 0 5#8 ≠ .ldF x) ∧
      (∀ x kk, Instr.ldImm 0 5#8 ≠ .rnd x kk) := by
  refine ⟨⟨⟨rfl, by decide⟩, rfl⟩, rfl, ?_, ?_, ?_, ?_, ?_, ?_, ?_⟩ <;> intros <;> simp
theorem witness_SoundTimerIsNeverRead : step (start 0xF018) = .next (after (start 0xF018)) := rfl
theorem witness_UnrecognisedOpcodeIsNoOp : runs (start 0xFFFF) (.unrecognised 0xFFFF#16) := ⟨⟨rfl, by decide⟩, rfl⟩
theorem witness_SysIsNoOp : runs (start 0x00EF) (.sys 0x0EF#12) ∧ (0x00EF#16).toNat / 4096 = 0 :=
  ⟨⟨⟨rfl, by decide⟩, rfl⟩, by decide⟩
theorem witness_JumpSetsPc :
    runs (start 0x1200) (.jp 0x200#12) ∧ (start 0x1200).pc.toNat = (0x200#12).toNat ∧ State.reset.fault = none :=
  ⟨⟨⟨rfl, by decide⟩, rfl⟩, by decide, rfl⟩
theorem witness_IndexedJumpAddsV0 :
    0xFFE < ((start 0xBF00).readReg 0).toNat + (0xFFF#12).toNat ∧ (start 0xBF00).fault = none := ⟨by decide, rfl⟩
theorem witness_CallPushesReturnAddress : (1 : Fin 16) ≠ State.reset.sp := by decide
theorem witness_ReturnsGiveLatestSixteenCalls :
    15 < 16 ∧ ((List.range 17).map (BitVec.ofNat 16)).reverse[15]? = some 1#16 := by decide
theorem witness_flag_registers : (14 : Reg) ≠ flagReg := by decide
theorem witness_DrawInvertsCoveredPixels :
    (State.reset.setI 0xFFF#16).i.toNat + (1#4).toNat ≤ 0x1000 ∧ (State.reset.setI 0xFF1#16).i.toNat + (15#4).toNat ≤
      0x1000 := by decide

/-- A one-pixel sprite at the font's first byte, over a set pixel and over a clear display. -/
theorem witness_DrawReportsCollision :
    (let s := (State.reset.setI 0x050#16).setFb (Framebuffer.toggle Framebuffer.clear 0 0)
     (∃ t, exec (.drw 0 0 1#4) s = .next t) ∧ spriteCovers s 0 0 1#4 0 0 ∧ Framebuffer.pixel s.fb 0 0 = true) ∧
    (∀ r c, spriteCovers (State.reset.setI 0x050#16) 0 0 1#4 r c →
      Framebuffer.pixel (State.reset.setI 0x050#16).fb r c = false) :=
  ⟨⟨⟨_, rfl⟩, ⟨0, 0, by decide, by decide, by decide, by decide, by decide⟩, by decide⟩,
    fun r c _ => Framebuffer.pixel_clear r c⟩
theorem witness_DrawTwiceRestoresPixels :
    ∃ t, exec (.drw 0 1 5#4) (State.reset.setI 0x050#16) = .next t ∧ t.mem = (State.reset.setI 0x050#16).mem ∧
      t.i = (State.reset.setI 0x050#16).i ∧ t.readReg 0 = (State.reset.setI 0x050#16).readReg 0 ∧
      t.readReg 1 = (State.reset.setI 0x050#16).readReg 1 := ⟨_, rfl, rfl, rfl, rfl, rfl⟩
theorem witness_block_access_bounds :
    (State.reset.setI 0xFFD#16).i.toNat + 2 ≤ 0xFFF ∧ 0xFFF < (State.reset.setI 0xFFE#16).i.toNat + 2 ∧
      (State.reset.setI 0xFF0#16).i.toNat + (15 : Reg).val ≤ 0xFFF ∧
      0xFFF < (State.reset.setI 0xFF1#16).i.toNat + (15 : Reg).val ∧ Memory.wf (State.reset.setI 0xFF0#16).mem = true := by
  decide
theorem witness_LoadReadsBackDump :
    Memory.wf (State.reset.setI 0x300#16).mem = true ∧ ∃ t, exec (.ldMemVx 15) (State.reset.setI 0x300#16) = .next t :=
  ⟨rfl, _, rfl⟩
theorem witness_StoredOpcodeIsFetchedNext :
    let s := ((start 0xF155).setI 0x202#16).writeReg 0 0x60#8
    runs s (.ldMemVx 1) ∧ Memory.wf s.mem = true ∧ s.i.toNat = s.pc.toNat + 2 ∧ completes s (after s) :=
  ⟨⟨⟨rfl, by decide⟩, rfl⟩, by decide, by decide, completes_of_completesAt (by decide)⟩
theorem witness_TimerTransfersAndSameStepTick :
    runs (start 0xF407) (.ldVxDT 4) ∧ runs (start 0xF315) (.ldDTVx 3) ∧ runs (start 0xF018) (.ldSTVx 0) :=
  ⟨⟨⟨rfl, by decide⟩, rfl⟩, ⟨⟨rfl, by decide⟩, rfl⟩, ⟨⟨rfl, by decide⟩, rfl⟩⟩
theorem witness_KeySkipsTestSnapshot :
    ((State.reset.writeReg 3 15#8).readReg 3).toNat = (15 : Fin 16).val ∧ 15 < ((State.reset.writeReg 3 16#8).readReg 3).toNat := by
  decide
theorem witness_KeyWaitTakesLowestKeyOrRewinds :
    let s := State.reset.setKeys (Vector.ofFn fun j => j.val == 3 || j.val == 15)
    s.keyPressed 3 = true ∧ (∀ j, j < 3 → s.keyPressed j = false) ∧ (∀ k, (start 0xF50A).keyPressed k = false) ∧
      runs (start 0xF50A) (.ldVxK 5) := ⟨by decide, by decide, by decide, ⟨⟨rfl, by decide⟩, rfl⟩⟩
theorem witness_KeyWaitPollsForAnyNumberOfSteps :
    runs (start 0xF50A) (.ldVxK 5) ∧ ∀ j, (start 0xF50A).keyPressed j = false :=
  ⟨⟨⟨rfl, by decide⟩, rfl⟩, by decide⟩
theorem witness_LoadImageCopiesOrFails :
    4096 < 4095 + [0xAA#8, 0xBB#8].length ∧ 4094 + [0xAA#8, 0xBB#8].length ≤ 4096 ∧
      [0xAA#8, 0xBB#8][1]? = some 0xBB#8 ∧ Memory.wf State.reset.mem = true := by decide
theorem witness_NewEngineIsReset :
    (0x04F < 0x050 ∨ 0x09F < 0x04F) ∧ (0x0A0 < 0x050 ∨ 0x09F < 0x0A0) ∧ font[0]? = some 0xF0#8 ∧
      font[79]? = some 0x80#8 := by decide

end Sys2Proof.Tests
end

section
/-! SUPPORT. The canonical form of memory determines the list (log 3). -/

namespace Sys2Proof.Machine

/-- The canonical form of a list with a first byte. -/
theorem Memory.wfFrom_cons_iff {lo : Nat} {c : Host.Cell} {cs : Memory} : Memory.wfFrom lo (c :: cs) = true ↔
    lo ≤ c.1 ∧ c.1 < Config.memSize ∧ c.2 ≠ resetByte c.1 ∧ Memory.wfFrom (c.1 + 1) cs = true := by
  simp [Memory.wfFrom, and_assoc]

@[simp] theorem Memory.read_head (c : Host.Cell) (cs : Memory) : Memory.read (c :: cs) c.1 = c.2 := by
  rw [Memory.read, if_pos rfl]

/-- The first listed address of a canonical memory is the lowest whose byte is not its reset byte. -/
theorem Memory.head_le_of_read_ne {lo a : Nat} {c : Host.Cell} {cs : Memory} (h : Memory.wfFrom lo (c :: cs) = true)
    (ha : Memory.read (c :: cs) a ≠ resetByte a) : c.1 ≤ a := by
  obtain ⟨-, hsize, hne, hcs⟩ := Memory.wfFrom_cons_iff.mp h
  have hc : Memory.wfFrom c.1 (c :: cs) = true := Memory.wfFrom_cons_iff.mpr ⟨le_rfl, hsize, hne, hcs⟩
  by_contra hlt
  exact ha (Memory.read_of_wfFrom_lt hc (by omega))

/-- Behind one and the same first byte, canonical memories that read the same read the same without it. -/
theorem Memory.read_tail_eq {c : Host.Cell} {cs cs' : Memory} (h : Memory.wfFrom (c.1 + 1) cs = true)
    (h' : Memory.wfFrom (c.1 + 1) cs' = true) (hr : ∀ a, Memory.read (c :: cs) a = Memory.read (c :: cs') a)
    (a : Nat) :
    Memory.read cs a = Memory.read cs' a := by
  by_cases ha : c.1 = a
  · rw [Memory.read_of_wfFrom_lt h (by omega), Memory.read_of_wfFrom_lt h' (by omega)]
  · simpa [Memory.read, ha] using hr a

theorem Memory.wfFrom_unique {lo : Nat} {m m' : Memory} (h : Memory.wfFrom lo m = true)
    (h' : Memory.wfFrom lo m' = true) (hr : ∀ a, Memory.read m a = Memory.read m' a) : m = m' := by
  induction m generalizing lo m' with
  | nil =>
    cases m' with
    | nil => rfl
    | cons c cs =>
      obtain ⟨-, -, hne, -⟩ := Memory.wfFrom_cons_iff.mp h'
      exact absurd ((Memory.read_head c cs).symm.trans (hr c.1).symm) hne
  | cons c cs ih =>
    obtain ⟨-, -, hne, hcs⟩ := Memory.wfFrom_cons_iff.mp h
    cases m' with
    | nil => exact absurd ((Memory.read_head c cs).symm.trans (hr c.1)) hne
    | cons c' cs' =>
      obtain ⟨-, -, hne', hcs'⟩ := Memory.wfFrom_cons_iff.mp h'
      have haddr : c.1 = c'.1 := le_antisymm
        (Memory.head_le_of_read_ne h (by rw [hr, Memory.read_head]; exact hne'))
        (Memory.head_le_of_read_ne h' (by rw [← hr, Memory.read_head]; exact hne))
      have hbyte : c.2 = c'.2 := by
        rw [← Memory.read_head c cs, hr, haddr, Memory.read_head]
      obtain rfl : c = c' := Prod.ext haddr hbyte
      rw [ih hcs hcs' (Memory.read_tail_eq hcs hcs' hr)]

/-- Settles O19, by induction on both lists: the first listed address is the lowest with a byte off its reset
contents, so the heads agree, and then the tails read the same. -/
theorem canonicalMemoryIsUnique : Obligations.CanonicalMemoryIsUnique :=
  fun _ _ h h' hr => Memory.wfFrom_unique h h' hr

end Sys2Proof.Machine
end

section
/-! SUPPORT. The frame rule of every state operation, of every instruction and of the step: which registers and parts
it may change. -/

namespace Sys2Proof.Machine

variable {rs rs' : List Reg} {ps ps' : List Part} {s t u : State}

/-! ## Frames compose -/

theorem Part.same_refl (s : State) (p : Part) : p.same s s := by
  cases p <;> simp [Part.same]

theorem Part.same_trans {p : Part} (h : p.same s t) (h' : p.same t u) : p.same s u := by
  cases p <;> simp_all [Part.same]

theorem changesOnly_refl (rs : List Reg) (ps : List Part) (s : State) : changesOnly rs ps s s :=
  ⟨fun _ _ => rfl, fun p _ => Part.same_refl s p⟩

theorem changesOnly_trans (h : changesOnly rs ps s t) (h' : changesOnly rs' ps' t u) :
    changesOnly (rs ++ rs') (ps ++ ps') s u := by
  refine ⟨fun r hr => ?_, fun p hp => ?_⟩
  · rw [List.mem_append, not_or] at hr
    exact (h'.1 r hr.2).trans (h.1 r hr.1)
  · rw [List.mem_append, not_or] at hp
    exact Part.same_trans (h.2 p hp.1) (h'.2 p hp.2)

theorem changesOnly_mono (h : changesOnly rs ps s t) (hr : rs ⊆ rs') (hp : ps ⊆ ps') : changesOnly rs' ps' s t :=
  ⟨fun r hn => h.1 r fun hm => hn (hr hm), fun p hn => h.2 p fun hm => hn (hp hm)⟩

/-! ## State operations -/

theorem changesOnly_setI (s : State) (a : Word) : changesOnly [] [.index] s (s.setI a) :=
  ⟨fun _ _ => rfl, fun p hp => by cases p <;> simp_all [Part.same]⟩

theorem changesOnly_setPc (s : State) (a : Word) : changesOnly [] [.pc] s (s.setPc a) :=
  ⟨fun _ _ => rfl, fun p hp => by cases p <;> simp_all [Part.same]⟩

theorem changesOnly_pushPc (s : State) : changesOnly [] [.callStack] s s.pushPc :=
  ⟨fun _ _ => rfl, fun p hp => by cases p <;> simp_all [Part.same]⟩

theorem changesOnly_popPc (s : State) : changesOnly [] [.callStack, .pc] s s.popPc :=
  ⟨fun _ _ => rfl, fun p hp => by cases p <;> simp_all [Part.same]⟩

theorem changesOnly_setDt (s : State) (b : Byte) : changesOnly [] [.delayTimer] s (s.setDt b) :=
  ⟨fun _ _ => rfl, fun p hp => by cases p <;> simp_all [Part.same]⟩

theorem changesOnly_setSt (s : State) (b : Byte) : changesOnly [] [.soundTimer] s (s.setSt b) :=
  ⟨fun _ _ => rfl, fun p hp => by cases p <;> simp_all [Part.same]⟩

theorem changesOnly_setMem (s : State) (m : Memory) : changesOnly [] [.memory] s (s.setMem m) :=
  ⟨fun _ _ => rfl, fun p hp => by cases p <;> simp_all [Part.same]⟩

theorem changesOnly_setFb (s : State) (fb : Framebuffer) : changesOnly [] [.display] s (s.setFb fb) :=
  ⟨fun _ _ => rfl, fun p hp => by cases p <;> simp_all [Part.same]⟩

theorem changesOnly_countDraw (s : State) : changesOnly [] [.draws] s s.countDraw :=
  ⟨fun _ _ => rfl, fun p hp => by cases p <;> simp_all [Part.same]⟩

theorem changesOnly_takeFault (s : State) (c : Fault) : changesOnly [] [.faultStatus] s (s.takeFault c) :=
  ⟨fun _ _ => rfl, fun p hp => by cases p <;> simp_all [Part.same]⟩

theorem changesOnly_writeReg (s : State) (x : Reg) (b : Byte) : changesOnly [x] [] s (s.writeReg x b) :=
  ⟨fun r hr => s.readReg_writeReg_of_ne x r b (List.mem_singleton.not.mp hr),
    fun p _ => by cases p <;> simp [Part.same]⟩

theorem changesOnly_writeResultFlag (s : State) (x : Reg) (b : Byte) (c : Bool) :
    changesOnly [x, flagReg] [] s (s.writeResultFlag x b c) :=
  changesOnly_trans (changesOnly_writeReg s x b) (changesOnly_writeReg _ flagReg (flagByte c))

/-- A block of at most `x` + 1 bytes reaches no register above V`x`. -/
theorem changesOnly_writeRegsFrom0 (s : State) (x : Reg) (bs : List Byte) (h : bs.length ≤ x.val + 1) :
    changesOnly ((List.finRange 16).filter fun r => r.val ≤ x.val) [] s (s.writeRegsFrom0 bs) := by
  refine ⟨fun r hr => ?_, fun p _ => by cases p <;> simp [Part.same]⟩
  have hx : x.val < r.val := by simpa using hr
  rw [State.readReg_writeRegsFrom0, List.getD_eq_default _ _ (by omega)]

theorem changesOnly_skipIf (s : State) (c : Bool) : changesOnly [] [.pc] s (s.skipIf c) := by
  cases c with
  | true => exact changesOnly_setPc s _
  | false => exact changesOnly_refl _ _ s

theorem changesOnly_tickTimers (s : State) : changesOnly [] [.delayTimer, .soundTimer] s s.tickTimers :=
  changesOnly_trans (changesOnly_setDt s _) (changesOnly_setSt _ _)

/-! ## Instructions -/

/-- The parts an instruction may change besides the registers of `writtenRegs`. The advance of `PC` and the tick are
the step's. -/
def writtenParts : Instr → List Part
  | .cls | .drw _ _ _ => [.display]
  | .ret | .call _ => [.callStack, .pc]
  | .jp _ | .jpV0 _ => [.pc]
  | .seImm _ _ | .sneImm _ _ | .seReg _ _ | .sneReg _ _ => [.pc]
  | .skp _ | .sknp _ | .ldVxK _ => [.pc]
  | .ldI _ | .addI _ | .ldF _ => [.index]
  | .ldDTVx _ => [.delayTimer]
  | .ldSTVx _ => [.soundTimer]
  | .ldB _ | .ldMemVx _ => [.memory]
  | .rnd _ _ => [.draws]
  | .sys _ | .unrecognised _ => []
  | .ldImm _ _ | .addImm _ _ | .ldReg _ _ | .orReg _ _ | .andReg _ _ | .xorReg _ _ => []
  | .addReg _ _ | .subReg _ _ | .shr _ _ | .subn _ _ | .shl _ _ => []
  | .ldVxDT _ | .ldVxMem _ => []

/-- The frame of every instruction that completes. -/
theorem exec_changesOnly {i : Instr} (h : exec i s = .next t) : changesOnly (writtenRegs i) (writtenParts i) s t := by
  cases i with
  | sys | unrecognised => cases h; exact changesOnly_refl _ _ s
  | cls => cases h; exact changesOnly_setFb s _
  | ret => cases h; exact changesOnly_popPc s
  | call => cases h; exact changesOnly_trans (changesOnly_pushPc s) (changesOnly_setPc _ _)
  | jp | jpV0 => cases h; exact changesOnly_setPc s _
  | seImm | sneImm | seReg | sneReg => cases h; exact changesOnly_skipIf s _
  | skp | sknp =>
    obtain ⟨k, -, rfl⟩ := orRaise_eq_next.mp h
    exact changesOnly_skipIf s _
  | ldImm | addImm | ldReg | orReg | andReg | xorReg | ldVxDT => cases h; exact changesOnly_writeReg s _ _
  | addReg | subReg | shr | subn | shl => cases h; exact changesOnly_writeResultFlag s _ _ _
  | rnd => cases h; exact changesOnly_trans (changesOnly_writeReg s _ _) (changesOnly_countDraw _)
  | ldI | addI | ldF => cases h; exact changesOnly_setI s _
  | ldDTVx => cases h; exact changesOnly_setDt s _
  | ldSTVx => cases h; exact changesOnly_setSt s _
  | ldVxK x =>
    simp only [exec, execLdVxK] at h
    split at h <;> cases h
    · exact changesOnly_mono (changesOnly_writeReg s x _) (List.Subset.refl _) (List.nil_subset _)
    · exact changesOnly_mono (changesOnly_setPc s _) (List.nil_subset _) (List.Subset.refl _)
  | ldB | ldMemVx =>
    obtain ⟨m, -, rfl⟩ := orRaise_eq_next.mp h
    exact changesOnly_setMem s m
  | drw =>
    obtain ⟨bs, -, rfl⟩ := orRaise_eq_next.mp h
    exact changesOnly_trans (changesOnly_setFb s _) (changesOnly_writeReg _ flagReg _)
  | ldVxMem x =>
    rw [exec_ldVxMem] at h
    split at h <;> cases h
    exact changesOnly_writeRegsFrom0 s x _ (by simp [bytesAtIndex])

/-! ## The step -/

/-- What a step that runs `i` did: `i` to its end and a tick, or `i`'s fault recorded. -/
theorem step_cases_of_runs {i : Instr} (hr : runs s i) (h : step s = .next t) :
    (∃ u, exec i s.advancePc = .next u ∧ t = u.tickTimers) ∨
    (∃ c, exec i s.advancePc = .fault c ∧ t = s.takeFault c) := by
  rw [step_of_runs hr] at h
  cases he : exec i s.advancePc with
  | next u => rw [he] at h; cases h; exact .inl ⟨u, rfl, rfl⟩
  | fault c => rw [he] at h; cases h; exact .inr ⟨c, rfl, rfl⟩
  | refused r => rw [he] at h; cases h

/-- The frame of the step that runs `i`: `PC`, the timers and the fault status are the step's own to change. -/
theorem step_changesOnly {i : Instr} (hr : runs s i) (h : step s = .next t) :
    changesOnly (writtenRegs i) ([.pc, .delayTimer, .soundTimer, .faultStatus] ++ writtenParts i) s t := by
  obtain ⟨u, he, rfl⟩ | ⟨c, -, rfl⟩ := step_cases_of_runs hr h
  · exact changesOnly_mono
      (changesOnly_trans (changesOnly_setPc s _) (changesOnly_trans (exec_changesOnly he) (changesOnly_tickTimers u)))
      (by simp) (fun p hp => by simp only [List.mem_append, List.mem_cons] at *; tauto)
  · exact changesOnly_mono (changesOnly_takeFault s c) (by simp) (by simp)

/-- Settles O20: the registers of the step's frame. -/
theorem stepWritesOnlyItsRegisters : Obligations.StepWritesOnlyItsRegisters :=
  fun _ _ _ hr h => (step_changesOnly hr h).1

/-- A part that neither the step itself nor its instruction changes. -/
theorem step_part_same {i : Instr} {p : Part} (hr : runs s i) (h : step s = .next t)
    (hstep : p ∉ [Part.pc, .delayTimer, .soundTimer, .faultStatus]) (hp : p ∉ writtenParts i) : p.same s t :=
  (step_changesOnly hr h).2 p (by rw [List.mem_append, not_or]; exact ⟨hstep, hp⟩)

/-- Settles O22: the display of the step's frame. -/
theorem onlyClsAndDrwChangePixels : Obligations.OnlyClsAndDrwChangePixels := by
  intro s t i hr h hcls hdrw
  have hp : Part.display ∉ writtenParts i := by cases i <;> simp_all [writtenParts]
  exact step_part_same hr h (by decide) hp

/-- Settles O23: the call stack, `I`, the keypad and the draw count of the step's frame. -/
theorem partsWrittenOnlyByTheirInstructions : Obligations.PartsWrittenOnlyByTheirInstructions := by
  intro s t i hr h
  refine ⟨fun hret hcall => ?_, fun hldI haddI hldF => ?_, ?_, fun hrnd => ?_⟩
  · have hp : Part.callStack ∉ writtenParts i := by cases i <;> simp_all [writtenParts]
    exact step_part_same hr h (by decide) hp
  · have hp : Part.index ∉ writtenParts i := by cases i <;> simp_all [writtenParts]
    exact step_part_same hr h (by decide) hp
  · have hp : Part.keypad ∉ writtenParts i := by cases i <;> simp [writtenParts]
    exact step_part_same hr h (by decide) hp
  · have hp : Part.draws ∉ writtenParts i := by cases i <;> simp_all [writtenParts]
    exact step_part_same hr h (by decide) hp

end Sys2Proof.Machine
end

section
/-! SUPPORT. Nothing reads the sound timer (60_exceptions.md R241): outcomes are compared with it set to 0. -/

namespace Sys2Proof.Machine

/-- An outcome with the sound timer of its next state forgotten. -/
def forgetSt : Host.Outcome State Fault Refusal → Host.Outcome State Fault Refusal
  | .next t => .next (t.setSt 0#8)
  | .fault c => .fault c
  | .refused r => .refused r

theorem forgetSt_eq_next {o : Host.Outcome State Fault Refusal} {v : State} :
    forgetSt o = .next v ↔ ∃ u, o = .next u ∧ u.setSt 0#8 = v := by
  cases o <;> simp [forgetSt]

/-- After one operation that may fault, continuations that agree but for the sound timer are not told apart. -/
theorem forgetSt_orRaise_congr {α : Type} {r : Except Fault α} {k k' : α → State}
    (h : ∀ a, (k a).setSt 0#8 = (k' a).setSt 0#8) : forgetSt (orRaise r k) = forgetSt (orRaise r k') := by
  cases r with
  | ok a => exact congrArg Host.Outcome.next (h a)
  | error c => rfl

/-- Forgetting the sound timer commutes with the end of the step: 0 ticks to 0. -/
theorem forgetSt_finishStep (s : State) (o : Host.Outcome State Fault Refusal) :
    forgetSt (finishStep s o) = finishStep (s.setSt 0#8) (forgetSt o) := by
  cases o <;> rfl

theorem State.setSt_skipIf_setSt (s : State) (b b' : Byte) (c : Bool) :
    ((s.setSt b).skipIf c).setSt b' = (s.skipIf c).setSt b' := by
  cases c <;> rfl

/-- No instruction reads the sound timer. -/
theorem forgetSt_exec_setSt (i : Instr) (s : State) (b : Byte) :
    forgetSt (exec i (s.setSt b)) = forgetSt (exec i s) := by
  cases i with
  | seImm | sneImm | seReg | sneReg =>
    exact congrArg Host.Outcome.next (s.setSt_skipIf_setSt b 0#8 _)
  | skp | sknp => exact forgetSt_orRaise_congr fun _ => s.setSt_skipIf_setSt b 0#8 _
  | ldB | ldMemVx | ldVxMem | drw => exact forgetSt_orRaise_congr fun _ => rfl
  | ldVxK =>
    have hkey : (s.setSt b).lowestKey = s.lowestKey := rfl
    simp only [exec, execLdVxK, hkey]
    cases s.lowestKey <;> rfl
  | _ => rfl

/-- The whole step does not read the sound timer. -/
theorem forgetSt_step_setSt (s : State) (b : Byte) : forgetSt (step (s.setSt b)) = forgetSt (step s) := by
  cases hf : s.fault with
  | some c => rw [step_of_fault hf, step_of_fault (s := s.setSt b) hf]
  | none =>
    by_cases hp : s.pc.toNat ≤ 0xFFE
    · have hr : runs s (decodeWord (fetchedWord s)) := (runs_iff s _).mpr ⟨⟨hf, hp⟩, rfl⟩
      have hrb : runs (s.setSt b) (decodeWord (fetchedWord s)) := hr
      rw [step_of_runs hr, step_of_runs hrb, forgetSt_finishStep, forgetSt_finishStep]
      exact congrArg _ (forgetSt_exec_setSt _ s.advancePc b)
    · have hout : 0xFFE < s.pc.toNat := by omega
      rw [step_of_pc_out hf hout, step_of_pc_out (s := s.setSt b) hf hout]
      rfl

/-- Settles O24: the two steps are one outcome once the sound timer is forgotten. -/
theorem soundTimerIsNeverRead : Obligations.SoundTimerIsNeverRead := by
  intro s t b h
  have hb : forgetSt (step (s.setSt b)) = .next (t.setSt 0#8) := by
    rw [forgetSt_step_setSt, h]
    rfl
  exact forgetSt_eq_next.mp hb

end Sys2Proof.Machine
end

section
/-! SUPPORT. What a block write leaves alone, what an instruction does to memory, and how it can fault, each said
once. -/

namespace Sys2Proof.Machine

variable {s t : State} {i : Instr}

/-- A block write changes no byte outside its block. -/
theorem Memory.read_writeAll_outside {m : Memory} (h : Memory.wf m = true) {a b : Nat} {bs : List Byte}
    (hs : a + bs.length ≤ Config.memSize) (hb : b < a ∨ a + bs.length ≤ b) :
    Memory.read (Memory.writeAll m a bs) b = Memory.read m b := by
  rw [Memory.read_writeAll h a bs hs]
  split
  · exact List.getD_eq_default _ _ (by omega)
  · rfl

/-! ## Memory -/

/-- The bytes an instruction stores from `I` up (20_memory.md R51). -/
def storedAtIndex (s : State) : Instr → List Byte
  | .ldB x => decimalDigits (s.readReg x)
  | .ldMemVx x => s.regsUpTo x
  | _ => []

theorem length_storedAtIndex (s : State) (i : Instr) : (storedAtIndex s i).length = storedBytes i := by
  cases i with
  | ldMemVx x => exact s.length_regsUpTo x
  | _ => rfl

/-- What an instruction that completes does to memory: it stores its bytes at `I`, all of them inside memory. -/
theorem exec_mem (h : exec i s = .next t) :
    t.mem = Memory.writeAll s.mem s.i.toNat (storedAtIndex s i) ∧
      (storedBytes i = 0 ∨ s.i.toNat + storedBytes i ≤ Config.memSize) := by
  cases i with
  | ldB x =>
    rw [exec_ldB] at h
    split at h <;> cases h
    exact ⟨rfl, .inr (Nat.le_of_not_lt ‹_›)⟩
  | ldMemVx x =>
    rw [exec_ldMemVx] at h
    split at h <;> cases h
    exact ⟨rfl, .inr (Nat.le_of_not_lt ‹_›)⟩
  | seImm | sneImm | seReg | sneReg => cases h; exact ⟨State.skipIf_mem _ _, .inl rfl⟩
  | skp | sknp =>
    obtain ⟨k, -, rfl⟩ := orRaise_eq_next.mp h
    exact ⟨State.skipIf_mem _ _, .inl rfl⟩
  | drw | ldVxMem =>
    obtain ⟨bs, -, rfl⟩ := orRaise_eq_next.mp h
    exact ⟨rfl, .inl rfl⟩
  | ldVxK =>
    simp only [exec, execLdVxK] at h
    split at h <;> cases h <;> exact ⟨rfl, .inl rfl⟩
  | _ => cases h; exact ⟨rfl, .inl rfl⟩

/-- An instruction that completes keeps the canonical form of memory. -/
theorem exec_mem_wf (h : exec i s = .next t) (hwf : Memory.wf s.mem = true) : Memory.wf t.mem = true := by
  obtain ⟨hmem, hbound⟩ := exec_mem h
  rw [← length_storedAtIndex s i] at hbound
  rw [hmem]
  rcases hbound with h0 | hin
  · rw [List.length_eq_zero_iff.mp h0]
    exact hwf
  · exact Memory.wf_writeAll hwf _ _ hin

/-- An instruction that completes stores nowhere but in its bytes at `I`. -/
theorem exec_sameMemoryOutside (h : exec i s = .next t) (hwf : Memory.wf s.mem = true) :
    sameMemoryOutside s.i.toNat (storedBytes i) s t := by
  intro b hb
  obtain ⟨hmem, hbound⟩ := exec_mem h
  rw [← length_storedAtIndex s i] at hb hbound
  rw [hmem]
  rcases hbound with h0 | hin
  · rw [List.length_eq_zero_iff.mp h0]
    rfl
  · exact Memory.read_writeAll_outside hwf hin hb

/-! ## Faults -/

/-- The faults an instruction can raise: the lowest data address above 0xFFF from `I` up, or a register's value that
names no key (60_exceptions.md R230, R235). -/
theorem exec_fault_cases {c : Fault} (h : exec i s = .fault c) :
    c = .memOutOfRange (max s.i.toNat 0x1000) ∨
      ∃ r, 15 < (s.readReg r).toNat ∧ c = .keyIndexOutOfRange (s.readReg r) := by
  cases i with
  | ldB => rw [exec_ldB] at h; split at h <;> cases h; exact .inl rfl
  | ldMemVx => rw [exec_ldMemVx] at h; split at h <;> cases h; exact .inl rfl
  | ldVxMem => rw [exec_ldVxMem] at h; split at h <;> cases h; exact .inl rfl
  | drw => rw [exec_drw] at h; split at h <;> cases h; exact .inl rfl
  | skp x => rw [exec_skp] at h; split at h <;> cases h; exact .inr ⟨x, by omega, rfl⟩
  | sknp x => rw [exec_sknp] at h; split at h <;> cases h; exact .inr ⟨x, by omega, rfl⟩
  | ldVxK => simp only [exec, execLdVxK] at h; split at h <;> cases h
  | _ => cases h

/-- An instruction that completes leaves the fault status alone. -/
theorem exec_fault_same (h : exec i s = .next t) : t.fault = s.fault :=
  (exec_changesOnly h).2 .faultStatus (by cases i <;> simp [writtenParts])

end Sys2Proof.Machine
end

section
/-! SUPPORT. The invariant of the engine: what an instruction and a recorded fault keep of it, and that every step
keeps it. -/

namespace Sys2Proof.Machine

variable {s t : State} {i : Instr}

/-! ## The bounds of `PC` and of the return addresses -/

theorem target_toNat (nnn : Addr12) : (target nnn).toNat = nnn.toNat :=
  BitVec.toNat_setWidth_of_le (by decide)

theorem State.regWide_toNat (s : State) (r : Reg) : (s.regWide r).toNat = (s.readReg r).toNat :=
  BitVec.toNat_setWidth_of_le (by decide)

theorem target_toNat_lt (nnn : Addr12) : (target nnn).toNat < 0x1000 := target_toNat nnn ▸ nnn.isLt

/-- `JP V0` goes no higher than 0xFF + 0xFFF, so its sum does not wrap. -/
theorem regWide_add_target_toNat_le (s : State) (r : Reg) (nnn : Addr12) :
    (s.regWide r + target nnn).toNat ≤ 0x10FE := by
  have hb := (s.readReg r).isLt
  have ht := target_toNat_lt nnn
  rw [BitVec.toNat_add, State.regWide_toNat]
  omega

/-- A skip adds at most 2 to `PC`. -/
theorem skipIf_pc_le (c : Bool) (h : s.pc.toNat ≤ 0x1000) : (s.skipIf c).pc.toNat ≤ 0x1002 := by
  rw [State.skipIf_pc]
  split <;> bv_omega

/-- Every stack entry is at most 0x1000 (40_step.md R102). -/
def stackBounded (s : State) : Prop := ∀ p : Fin 16, s.stack[p.val].toNat ≤ 0x1000

/-- Where an instruction that completes can leave `PC`, started with `PC` past an opcode that could be fetched. -/
theorem exec_pc_le (h : exec i s = .next t) (hlo : 2 ≤ s.pc.toNat) (hhi : s.pc.toNat ≤ 0x1000)
    (hstack : stackBounded s) : t.pc.toNat ≤ 0x10FE := by
  cases i with
  | ret =>
    cases h
    exact (hstack (s.sp - 1)).trans (by decide)
  | jp nnn | call nnn =>
    cases h
    exact (target_toNat_lt nnn).le.trans (by decide)
  | jpV0 nnn =>
    cases h
    exact regWide_add_target_toNat_le s 0 nnn
  | seImm | sneImm | seReg | sneReg =>
    cases h
    exact (skipIf_pc_le _ hhi).trans (by decide)
  | skp | sknp =>
    obtain ⟨k, -, rfl⟩ := orRaise_eq_next.mp h
    exact (skipIf_pc_le _ hhi).trans (by decide)
  | ldVxK =>
    simp only [exec, execLdVxK] at h
    split at h <;> cases h
    · exact hhi.trans (by decide)
    · rw [State.rewindPc_pc]
      bv_omega
  | _ =>
    have hpc : t.pc = s.pc := (exec_changesOnly h).2 .pc (by simp [writtenParts])
    rw [hpc]
    exact hhi.trans (by decide)

/-- Only `CALL` writes a stack entry, and what it writes is `PC`. -/
theorem exec_stackBounded (h : exec i s = .next t) (hhi : s.pc.toNat ≤ 0x1000) (hstack : stackBounded s) :
    stackBounded t := by
  intro p
  cases i with
  | ret => cases h; exact hstack p
  | call =>
    cases h
    rw [State.setPc_stack, State.pushPc_stack, Vector.getElem_set]
    split
    · exact hhi
    · exact hstack p
  | _ =>
    have hcs : Part.callStack.same s t := (exec_changesOnly h).2 .callStack (by simp [writtenParts])
    rw [hcs.2 p]
    exact hstack p

/-! ## Recorded faults -/

/-- Recording a truthful fault keeps the invariant. -/
theorem inv_takeFault {c : Fault} (h : Inv s) (hc : faultTruthful (s.takeFault c)) : Inv (s.takeFault c) := by
  obtain ⟨hwf, hpc, hstack, -⟩ := h
  exact ⟨hwf, hpc, hstack, hc⟩

theorem faultTruthful_takeFault_fetch (h : 0xFFE < s.pc.toNat) :
    faultTruthful (s.takeFault (.fetchOutOfRange s.pc)) :=
  ⟨rfl, h⟩

/-- A fault that an instruction raises is truthful in the state the step began at: the advance of `PC` changes
neither `I` nor a register. -/
theorem faultTruthful_takeFault_exec {c : Fault} (h : exec i s.advancePc = .fault c) :
    faultTruthful (s.takeFault c) := by
  obtain rfl | ⟨r, hr, rfl⟩ := exec_fault_cases h
  · rfl
  · exact ⟨hr, r, rfl⟩

theorem faultTruthful_of_none (h : s.fault = none) : faultTruthful s := by
  simp [faultTruthful, h]

/-! ## The step -/

/-- The invariant speaks of no timer. -/
theorem inv_tickTimers (h : Inv s) : Inv s.tickTimers := h

/-- An instruction that runs to its end keeps the invariant. -/
theorem inv_of_exec (hs : Inv s) (hr : runs s i) (h : exec i s.advancePc = .next t) : Inv t := by
  obtain ⟨hwf, -, hstack, -⟩ := hs
  obtain ⟨⟨hfault, hfetch⟩, -⟩ := hr
  have hpc : s.advancePc.pc.toNat = s.pc.toNat + 2 := by
    rw [State.advancePc_pc]
    bv_omega
  have hhi : s.advancePc.pc.toNat ≤ 0x1000 := by omega
  have hnone : t.fault = none := (exec_fault_same h).trans hfault
  exact ⟨exec_mem_wf h hwf, exec_pc_le h (by omega) hhi hstack, exec_stackBounded h hhi hstack,
    faultTruthful_of_none hnone⟩

/-- Settles O17, by the three things a step can do: record the fetch's fault, run an instruction to its end, or
record the instruction's fault. -/
theorem stepKeepsInvariant : Obligations.StepKeepsInvariant := by
  intro s t hs h
  obtain ⟨-, hout, rfl⟩ | ⟨i, u, hr, he, rfl⟩ | ⟨i, c, -, he, rfl⟩ := step_cases h
  · exact inv_takeFault hs (faultTruthful_takeFault_fetch hout)
  · exact inv_tickTimers (inv_of_exec hs hr he)
  · exact inv_takeFault hs (faultTruthful_takeFault_exec he)

end Sys2Proof.Machine
end

section
/-! SUPPORT. Placing an opcode, where a step stores, and fetching what a step stored. -/

namespace Sys2Proof.Machine

variable {s : State}

/-! ## Placing an opcode -/

/-- An opcode is its two bytes put together, the most significant first (20_memory.md R53). -/
theorem bytesWord_wordBytes (op : Word) : bytesWord (op.extractLsb' 8 8) (op.extractLsb' 0 8) = op := by
  apply BitVec.eq_of_toNat_eq
  simp only [bytesWord_toNat, BitVec.extractLsb'_toNat, Nat.shiftRight_eq_div_pow]
  omega

/-- Where a fetch is possible, placing an opcode writes its two bytes at `PC`. -/
theorem withFetchWord_eq (h : s.canFetch) (w : Nat) : s.withFetchWord 16 w =
    s.setMem (Memory.writeAll s.mem s.pc.toNat (wordBytes (BitVec.ofNat 16 w))) := by
  have hop : tableOpcode 16 w = BitVec.ofNat 16 w := by
    apply BitVec.eq_of_toNat_eq
    simp [tableOpcode]
  have hin : s.pc.toNat + 1 < Config.memSize := by
    have := h.2
    simp only [Config.memSize]
    omega
  rw [State.withFetchWord, State.placeOpcode, if_pos hin, hop]

/-- A fetch at the start of a block just written reads the block's first two bytes. -/
theorem fetchedWord_of_writeAll {m : Memory} {a : Nat} {bs : List Byte} (h : Memory.wf m = true)
    (hin : a + bs.length ≤ Config.memSize) (hpc : s.pc.toNat = a) (hmem : s.mem = Memory.writeAll m a bs) :
    fetchedWord s = bytesWord (bs.getD 0 (Memory.read m a)) (bs.getD 1 (Memory.read m (a + 1))) := by
  rw [fetchedWord, hpc, hmem, Memory.read_writeAll h _ _ hin, Memory.read_writeAll h _ _ hin, if_pos le_rfl,
    if_pos (Nat.le_succ _), Nat.sub_self, Nat.add_sub_cancel_left]

/-- Settles O9: the placed bytes are what is fetched, and they lie at `PC` and `PC` + 1. -/
theorem placedOpcodeRunsNext : Obligations.PlacedOpcodeRunsNext := by
  intro s w hfetch hwf _
  have hin : s.pc.toNat + (wordBytes (BitVec.ofNat 16 w)).length ≤ Config.memSize := Nat.add_le_add_right hfetch.2 2
  rw [withFetchWord_eq hfetch]
  refine ⟨(runs_iff _ _).mpr ⟨hfetch, ?_⟩, changesOnly_setMem s _, fun b hb => Memory.read_writeAll_outside hwf hin hb⟩
  rw [fetchedWord_of_writeAll hwf hin (congrArg BitVec.toNat (s.setMem_pc _)) (s.setMem_mem _)]
  exact congrArg decodeWord (bytesWord_wordBytes _)

/-! ## Stores of a step -/

/-- Settles O21: the stores of an instruction that completes; a step that records a fault stores nothing. -/
theorem stepStoresOnlyAtIndex : Obligations.StepStoresOnlyAtIndex := by
  intro s t i hr hwf h
  obtain ⟨u, he, rfl⟩ | ⟨c, -, rfl⟩ := step_cases_of_runs hr h
  · exact fun b hb => exec_sameMemoryOutside he hwf b hb
  · exact fun _ _ => rfl

/-- Settles O51: the store starts at the `PC` of the next fetch, and its first two bytes are V0 and V1. -/
theorem storedOpcodeIsFetchedNext : Obligations.StoredOpcodeIsFetchedNext := by
  intro x s t hr hwf hx hi ⟨hstep, hok⟩
  obtain ⟨u, he, rfl⟩ | ⟨c, -, rfl⟩ := step_cases_of_runs hr hstep
  · obtain ⟨hmem, hbound⟩ := exec_mem he
    have hfit : s.i.toNat + (x.val + 1) ≤ 0x1000 := hbound.resolve_left (Nat.succ_ne_zero _)
    have hin : s.i.toNat + (s.regsUpTo x).length ≤ Config.memSize := (s.length_regsUpTo x).symm ▸ hfit
    have hupc : u.pc = s.pc + 2#16 := (exec_changesOnly he).2 .pc (by simp [writtenParts])
    have hpc : u.tickTimers.pc.toNat = s.i.toNat := by
      rw [State.tickTimers_pc, hupc]
      bv_omega
    have h0 (d : Byte) : (s.regsUpTo x).getD 0 d = s.readReg 0 := s.getD_regsUpTo x 0 (Nat.zero_le _) d
    have h1 (d : Byte) : (s.regsUpTo x).getD 1 d = s.readReg 1 := s.getD_regsUpTo x 1 hx d
    refine ⟨_, fetch_ok (by omega), ?_⟩
    rw [fetchedWord_of_writeAll hwf hin hpc hmem, bytesWord_toNat, h0, h1]
    omega
  · cases hok

end Sys2Proof.Machine
end

section
/-! SUPPORT. The decoder by the family of the opcode: one lemma per high nibble (30_encoding.md R75). -/

namespace Sys2Proof

variable {op : Word} {f n : Nibble} {kk : Byte}

/-! ## An opcode by its fields -/

theorem eq_formNNN_iff (op : Word) (f : Nibble) (nnn : Addr12) :
    op = formNNN f nnn ↔ fieldF op = f ∧ fieldNNN op = nnn := by
  rw [← formNNN_inj, formNNN_fields]

theorem eq_clsWord_iff (op : Word) : op = 0x00E0#16 ↔ fieldF op = 0 ∧ fieldNNN op = 0x0E0#12 :=
  eq_formNNN_iff op 0 0x0E0#12

theorem eq_retWord_iff (op : Word) : op = 0x00EE#16 ↔ fieldF op = 0 ∧ fieldNNN op = 0x0EE#12 :=
  eq_formNNN_iff op 0 0x0EE#12

theorem formNNN_of_fields (hf : fieldF op = f) : formNNN f (fieldNNN op) = op := hf ▸ formNNN_fields op

theorem formXKK_of_fields (hf : fieldF op = f) : formXKK f (fieldX op) (fieldKK op) = op := hf ▸ formXKK_fields op

theorem formXSS_of_fields (hf : fieldF op = f) (hk : fieldKK op = kk) : formXKK f (fieldX op) kk = op :=
  hk ▸ formXKK_of_fields hf

theorem formXYN_of_fields (hf : fieldF op = f) (hn : fieldN op = n) :
    formXYN f (fieldX op) (fieldY op) n = op :=
  hf ▸ hn ▸ formXYN_fields op

theorem nibble_cases : ∀ f : Nibble, f = 0 ∨ f = 1 ∨ f = 2 ∨ f = 3 ∨ f = 4 ∨ f = 5 ∨ f = 6 ∨ f = 7 ∨
    f = 8 ∨ f = 9 ∨ f = 10 ∨ f = 11 ∨ f = 12 ∨ f = 13 ∨ f = 14 ∨ f = 15 := by decide

/-! ## The sixteen families -/

theorem decodeWord_family0 (h : fieldF op = 0) : decodeWord op =
    if fieldNNN op = 0x0E0 then .cls else if fieldNNN op = 0x0EE then .ret else .sys (fieldNNN op) := by
  simp [decodeWord_eq, eq_clsWord_iff, eq_retWord_iff, h]

theorem decodeWord_family1 (h : fieldF op = 1) : decodeWord op = .jp (fieldNNN op) := by
  simp [decodeWord_eq, eq_clsWord_iff, eq_retWord_iff, h]

theorem decodeWord_family2 (h : fieldF op = 2) : decodeWord op = .call (fieldNNN op) := by
  simp [decodeWord_eq, eq_clsWord_iff, eq_retWord_iff, h]

theorem decodeWord_family3 (h : fieldF op = 3) : decodeWord op = .seImm (fieldX op) (fieldKK op) := by
  simp [decodeWord_eq, eq_clsWord_iff, eq_retWord_iff, h]

theorem decodeWord_family4 (h : fieldF op = 4) : decodeWord op = .sneImm (fieldX op) (fieldKK op) := by
  simp [decodeWord_eq, eq_clsWord_iff, eq_retWord_iff, h]

theorem decodeWord_family5 (h : fieldF op = 5) : decodeWord op =
    if fieldN op = 0 then .seReg (fieldX op) (fieldY op) else .unrecognised op := by
  simp [decodeWord_eq, eq_clsWord_iff, eq_retWord_iff, h]

theorem decodeWord_family6 (h : fieldF op = 6) : decodeWord op = .ldImm (fieldX op) (fieldKK op) := by
  simp [decodeWord_eq, eq_clsWord_iff, eq_retWord_iff, h]

theorem decodeWord_family7 (h : fieldF op = 7) : decodeWord op = .addImm (fieldX op) (fieldKK op) := by
  simp [decodeWord_eq, eq_clsWord_iff, eq_retWord_iff, h]

theorem decodeWord_family8 (h : fieldF op = 8) : decodeWord op =
    if fieldN op = 0 then .ldReg (fieldX op) (fieldY op)
    else if fieldN op = 1 then .orReg (fieldX op) (fieldY op)
    else if fieldN op = 2 then .andReg (fieldX op) (fieldY op)
    else if fieldN op = 3 then .xorReg (fieldX op) (fieldY op)
    else if fieldN op = 4 then .addReg (fieldX op) (fieldY op)
    else if fieldN op = 5 then .subReg (fieldX op) (fieldY op)
    else if fieldN op = 6 then .shr (fieldX op) (fieldY op)
    else if fieldN op = 7 then .subn (fieldX op) (fieldY op)
    else if fieldN op = 14 then .shl (fieldX op) (fieldY op)
    else .unrecognised op := by
  simp [decodeWord_eq, eq_clsWord_iff, eq_retWord_iff, h]

theorem decodeWord_family9 (h : fieldF op = 9) : decodeWord op =
    if fieldN op = 0 then .sneReg (fieldX op) (fieldY op) else .unrecognised op := by
  simp [decodeWord_eq, eq_clsWord_iff, eq_retWord_iff, h]

theorem decodeWord_familyA (h : fieldF op = 10) : decodeWord op = .ldI (fieldNNN op) := by
  simp [decodeWord_eq, eq_clsWord_iff, eq_retWord_iff, h]

theorem decodeWord_familyB (h : fieldF op = 11) : decodeWord op = .jpV0 (fieldNNN op) := by
  simp [decodeWord_eq, eq_clsWord_iff, eq_retWord_iff, h]

theorem decodeWord_familyC (h : fieldF op = 12) : decodeWord op = .rnd (fieldX op) (fieldKK op) := by
  simp [decodeWord_eq, eq_clsWord_iff, eq_retWord_iff, h]

theorem decodeWord_familyD (h : fieldF op = 13) :
    decodeWord op = .drw (fieldX op) (fieldY op) (fieldN op) := by
  simp [decodeWord_eq, eq_clsWord_iff, eq_retWord_iff, h]

theorem decodeWord_familyE (h : fieldF op = 14) : decodeWord op =
    if fieldKK op = 0x9E then .skp (fieldX op) else if fieldKK op = 0xA1 then .sknp (fieldX op)
    else .unrecognised op := by
  simp [decodeWord_eq, eq_clsWord_iff, eq_retWord_iff, h]

theorem decodeWord_familyF (h : fieldF op = 15) : decodeWord op =
    if fieldKK op = 0x07 then .ldVxDT (fieldX op)
    else if fieldKK op = 0x0A then .ldVxK (fieldX op)
    else if fieldKK op = 0x15 then .ldDTVx (fieldX op)
    else if fieldKK op = 0x18 then .ldSTVx (fieldX op)
    else if fieldKK op = 0x1E then .addI (fieldX op)
    else if fieldKK op = 0x29 then .ldF (fieldX op)
    else if fieldKK op = 0x33 then .ldB (fieldX op)
    else if fieldKK op = 0x55 then .ldMemVx (fieldX op)
    else if fieldKK op = 0x65 then .ldVxMem (fieldX op)
    else .unrecognised op := by
  simp [decodeWord_eq, eq_clsWord_iff, eq_retWord_iff, h]

end Sys2Proof
end

section
/-! SUPPORT. Decoding and encoding undo each other, and the opcodes that are no instruction. -/

namespace Sys2Proof

/-! ## The unrecognised opcodes -/

/-- The decoder falls through to the catch-all exactly on the list of 30_encoding.md R77. -/
theorem decodeWord_eq_unrecognised_iff (op : Word) :
    decodeWord op = .unrecognised op ↔ isUnrecognisedWord op = true := by
  obtain hf | hf | hf | hf | hf | hf | hf | hf | hf | hf | hf | hf | hf | hf | hf | hf := nibble_cases (fieldF op)
  · simp [decodeWord_family0 hf, isUnrecognisedWord, hf, ite_eq_iff]
  · simp [decodeWord_family1 hf, isUnrecognisedWord, hf]
  · simp [decodeWord_family2 hf, isUnrecognisedWord, hf]
  · simp [decodeWord_family3 hf, isUnrecognisedWord, hf]
  · simp [decodeWord_family4 hf, isUnrecognisedWord, hf]
  · simp [decodeWord_family5 hf, isUnrecognisedWord, hf]
  · simp [decodeWord_family6 hf, isUnrecognisedWord, hf]
  · simp [decodeWord_family7 hf, isUnrecognisedWord, hf]
  · obtain hn | hn | hn | hn | hn | hn | hn | hn | hn | hn | hn | hn | hn | hn | hn | hn :=
      nibble_cases (fieldN op) <;>
    simp [decodeWord_family8 hf, isUnrecognisedWord, hf, hn]
  · simp [decodeWord_family9 hf, isUnrecognisedWord, hf]
  · simp [decodeWord_familyA hf, isUnrecognisedWord, hf]
  · simp [decodeWord_familyB hf, isUnrecognisedWord, hf]
  · simp [decodeWord_familyC hf, isUnrecognisedWord, hf]
  · simp [decodeWord_familyD hf, isUnrecognisedWord, hf]
  · simp [decodeWord_familyE hf, isUnrecognisedWord, hf, ite_eq_iff]
  · simp [decodeWord_familyF hf, isUnrecognisedWord, hf, ite_eq_iff]

/-! ## Round trips -/

/-- Decoding keeps every bit: each family's fields, put together by the encoder's form, are the opcode (log 7). -/
theorem encode_decodeWord (op : Word) : encode (decodeWord op) = op := by
  obtain hf | hf | hf | hf | hf | hf | hf | hf | hf | hf | hf | hf | hf | hf | hf | hf := nibble_cases (fieldF op)
  · rw [decodeWord_family0 hf]
    split_ifs with hcls hret
    · exact ((eq_clsWord_iff op).mpr ⟨hf, hcls⟩).symm
    · exact ((eq_retWord_iff op).mpr ⟨hf, hret⟩).symm
    · exact formNNN_of_fields hf
  · exact decodeWord_family1 hf ▸ formNNN_of_fields hf
  · exact decodeWord_family2 hf ▸ formNNN_of_fields hf
  · exact decodeWord_family3 hf ▸ formXKK_of_fields hf
  · exact decodeWord_family4 hf ▸ formXKK_of_fields hf
  · rw [decodeWord_family5 hf]
    split_ifs with hn
    · exact formXYN_of_fields hf hn
    · rfl
  · exact decodeWord_family6 hf ▸ formXKK_of_fields hf
  · exact decodeWord_family7 hf ▸ formXKK_of_fields hf
  · rw [decodeWord_family8 hf]
    split_ifs
    case neg => rfl
    all_goals exact formXYN_of_fields hf ‹_›
  · rw [decodeWord_family9 hf]
    split_ifs with hn
    · exact formXYN_of_fields hf hn
    · rfl
  · exact decodeWord_familyA hf ▸ formNNN_of_fields hf
  · exact decodeWord_familyB hf ▸ formNNN_of_fields hf
  · exact decodeWord_familyC hf ▸ formXKK_of_fields hf
  · exact decodeWord_familyD hf ▸ formXYN_of_fields hf rfl
  · rw [decodeWord_familyE hf]
    split_ifs
    case neg => rfl
    all_goals exact formXSS_of_fields hf ‹_›
  · rw [decodeWord_familyF hf]
    split_ifs
    case neg => rfl
    all_goals exact formXSS_of_fields hf ‹_›

/-- Only `sys` and `unrecognised` can be ill formed: `sys` would hold the bits of `CLS` or `RET`, which decode to
those. -/
theorem decodeWord_wellFormed (op : Word) : (decodeWord op).wellFormed = true := by
  have henc := encode_decodeWord op
  cases hd : decodeWord op with
  | sys nnn =>
    rw [hd] at henc
    subst henc
    have hcls : nnn ≠ 0x0E0#12 := by
      rintro rfl
      cases hd
    have hret : nnn ≠ 0x0EE#12 := by
      rintro rfl
      cases hd
    simp [Instr.wellFormed, hcls, hret]
  | unrecognised op' =>
    rw [hd] at henc
    obtain rfl : op' = op := henc
    exact (decodeWord_eq_unrecognised_iff _).mp hd
  | _ => rfl

/-- Settles O2: the decoder drops no bit, and what it builds is well formed. -/
theorem encodeUndoesDecode : Obligations.EncodeUndoesDecode :=
  fun op => ⟨decodeWord_wellFormed op, encode_decodeWord op⟩

/-- Settles O1, by the format of the instruction's row: the fields of an encoded form are its operands. -/
theorem decodeUndoesEncode : Obligations.DecodeUndoesEncode := by
  intro i hwf
  cases i with
  | cls | ret => rfl
  | sys nnn =>
    obtain ⟨hcls, hret⟩ : nnn ≠ 0x0E0#12 ∧ nnn ≠ 0x0EE#12 := by simpa [Instr.wellFormed] using hwf
    simp [encode, decodeWord_family0, fieldF_formNNN, fieldNNN_formNNN, hcls, hret]
  | jp | call | ldI | jpV0 =>
    simp [encode, decodeWord_family1, decodeWord_family2, decodeWord_familyA, decodeWord_familyB, fieldF_formNNN,
      fieldNNN_formNNN]
  | seImm | sneImm | ldImm | addImm | rnd =>
    simp [encode, decodeWord_family3, decodeWord_family4, decodeWord_family6, decodeWord_family7, decodeWord_familyC,
      fieldF_formXKK, fieldX_formXKK, fieldKK_formXKK]
  | seReg | sneReg | drw =>
    simp [encode, decodeWord_family5, decodeWord_family9, decodeWord_familyD, fieldF_formXYN, fieldX_formXYN,
      fieldY_formXYN, fieldN_formXYN]
  | ldReg | orReg | andReg | xorReg | addReg | subReg | shr | subn | shl =>
    simp [encode, decodeWord_family8, fieldF_formXYN, fieldX_formXYN, fieldY_formXYN, fieldN_formXYN]
  | skp | sknp =>
    simp [encode, decodeWord_familyE, fieldF_formXKK, fieldX_formXKK, fieldKK_formXKK]
  | ldVxDT | ldVxK | ldDTVx | ldSTVx | addI | ldF | ldB | ldMemVx | ldVxMem =>
    simp [encode, decodeWord_familyF, fieldF_formXKK, fieldX_formXKK, fieldKK_formXKK]
  | unrecognised op => exact (decodeWord_eq_unrecognised_iff op).mpr hwf

end Sys2Proof
end

section
/-! SUPPORT. The opcodes that are no instruction, by the number an opcode is (30_encoding.md R77). -/

namespace Sys2Proof

theorem fieldF_eq_iff (op : Word) (f : Nibble) : fieldF op = f ↔ op.toNat / 4096 = f.toNat := by
  rw [← BitVec.toNat_inj, fieldF_toNat]

theorem fieldN_eq_iff (op : Word) (n : Nibble) : fieldN op = n ↔ op.toNat % 16 = n.toNat := by
  rw [← BitVec.toNat_inj, fieldN_toNat]

theorem fieldKK_eq_iff (op : Word) (kk : Byte) : fieldKK op = kk ↔ op.toNat % 256 = kk.toNat := by
  rw [← BitVec.toNat_inj, fieldKK_toNat]

/-- The list of R77 by an opcode's fields is the list by the number the opcode is. -/
theorem isUnrecognisedWord_iff (op : Word) : isUnrecognisedWord op = true ↔
    (op.toNat / 4096 = 0x5 ∧ op.toNat % 16 ≠ 0) ∨
    (op.toNat / 4096 = 0x8 ∧ op.toNat % 16 ∈ [0x8, 0x9, 0xA, 0xB, 0xC, 0xD, 0xF]) ∨
    (op.toNat / 4096 = 0x9 ∧ op.toNat % 16 ≠ 0) ∨
    (op.toNat / 4096 = 0xE ∧ op.toNat % 256 ∉ [0x9E, 0xA1]) ∨
    (op.toNat / 4096 = 0xF ∧ op.toNat % 256 ∉ [0x07, 0x0A, 0x15, 0x18, 0x1E, 0x29, 0x33, 0x55, 0x65]) := by
  unfold isUnrecognisedWord
  simp only [fieldF_eq_iff]
  split_ifs with h5 h8 h9 hE hF
  · simp [h5, fieldN_eq_iff]
  · simp [h8, fieldN_eq_iff]
  · simp [h9, fieldN_eq_iff]
  · simp [hE, fieldKK_eq_iff]
  · simp [hF, fieldKK_eq_iff]
  · simp_all

/-- Settles O3: the catch-all is reached exactly on the model's list, and that is R77's. -/
theorem unrecognisedOpcodesAreThoseListed : Obligations.UnrecognisedOpcodesAreThoseListed :=
  fun op => (decodeWord_eq_unrecognised_iff op).trans (isUnrecognisedWord_iff op)

end Sys2Proof
end

section
/-! SUPPORT. Which rows of the opcode map can select one opcode (30_encoding.md R74). -/

namespace Sys2Proof

/-- Two rows agree on the bits that both fix. -/
def OpcodeRow.agrees (r q : OpcodeRow) : Bool := r.pattern &&& q.mask == q.pattern &&& r.mask

theorem OpcodeRow.agrees_of_selects {r q : OpcodeRow} {op : Word} (hr : r.selects op = true)
    (hq : q.selects op = true) : r.agrees q = true := by
  have hrp : op &&& r.mask = r.pattern := by simpa [OpcodeRow.selects] using hr
  have hqp : op &&& q.mask = q.pattern := by simpa [OpcodeRow.selects] using hq
  rw [OpcodeRow.agrees, beq_iff_eq, ← hrp, ← hqp, BitVec.and_assoc, BitVec.and_assoc, BitVec.and_comm r.mask]

/-- `CLS` and `RET` agree with `SYS`; no other two rows agree. -/
theorem opcodeTable_agrees_only_at_sys : ∀ (k : Nat) (hk : k < opcodeTable.length) (j : Nat) (hj : j < k),
    (opcodeTable[j]'(hj.trans hk)).agrees opcodeTable[k] = true → j ≤ 1 ∧ k = 2 := by
  decide

/-- Settles O4: rows that select one opcode agree on the bits that both fix. -/
theorem rowsOverlapOnlyAtSys : Obligations.RowsOverlapOnlyAtSys := by
  intro j k r q op hjk hj hk hr hq
  obtain ⟨_, rfl⟩ := List.getElem?_eq_some_iff.mp hj
  obtain ⟨hklt, rfl⟩ := List.getElem?_eq_some_iff.mp hk
  exact opcodeTable_agrees_only_at_sys k hklt j hjk (OpcodeRow.agrees_of_selects hr hq)

end Sys2Proof
end

section
/-! SUPPORT. Whole families of opcodes by the number an opcode is, and single words written out. -/

namespace Sys2Proof

open Machine

/-! ## Families whose opcodes are all one instruction (30_encoding.md R71, R72) -/

theorem opcodesNNN_of_decodeWord {f : Nibble} {mk : Addr12 → Instr}
    (h : ∀ op, fieldF op = f → decodeWord op = mk (fieldNNN op)) : opcodesNNN f.toNat mk :=
  fun op hf => ⟨fieldNNN op, h op ((fieldF_eq_iff op f).mpr hf), fieldNNN_toNat op⟩

theorem opcodesXKK_of_decodeWord {f : Nibble} {mk : Reg → Byte → Instr}
    (h : ∀ op, fieldF op = f → decodeWord op = mk (fieldX op) (fieldKK op)) : opcodesXKK f.toNat mk :=
  fun op hf =>
    ⟨fieldX op, fieldKK op, h op ((fieldF_eq_iff op f).mpr hf), fieldX_val op, fieldKK_toNat op⟩

theorem opcodesXYS_of_decodeWord {f n : Nibble} {mk : Reg → Reg → Instr}
    (h : ∀ op, fieldF op = f → fieldN op = n → decodeWord op = mk (fieldX op) (fieldY op)) :
    opcodesXYS f.toNat n.toNat mk :=
  fun op hf hn => ⟨fieldX op, fieldY op, h op ((fieldF_eq_iff op f).mpr hf) ((fieldN_eq_iff op n).mpr hn),
    fieldX_val op, fieldY_val op⟩

theorem opcodesXSS_of_decodeWord {f : Nibble} {kk : Byte} {mk : Reg → Instr}
    (h : ∀ op, fieldF op = f → fieldKK op = kk → decodeWord op = mk (fieldX op)) :
    opcodesXSS f.toNat kk.toNat mk :=
  fun op hf hk => ⟨fieldX op, h op ((fieldF_eq_iff op f).mpr hf) ((fieldKK_eq_iff op kk).mpr hk), fieldX_val op⟩

theorem opcodesXKK_ldImm : opcodesXKK 0x6 .ldImm :=
  opcodesXKK_of_decodeWord (f := 0x6#4) fun _ hf => decodeWord_family6 hf

theorem opcodesXYS_addReg : opcodesXYS 0x8 0x4 .addReg :=
  opcodesXYS_of_decodeWord (f := 0x8#4) (n := 0x4#4) fun _ hf hn => by simp [decodeWord_family8 hf, hn]

/-- Settles O5: the three words by evaluation, the families by the decoder's lemmas for high nibbles 6 and 8. -/
theorem sourceShownEncodingsDecode : Obligations.SourceShownEncodingsDecode :=
  ⟨rfl, rfl, rfl, opcodesXKK_ldImm, opcodesXYS_addReg⟩

/-- Settles O6: by evaluating the decoder on each word. -/
theorem writtenOutWordsDecode : Obligations.WrittenOutWordsDecode :=
  ⟨rfl, rfl, rfl, rfl, rfl, rfl, rfl, rfl, rfl⟩

end Sys2Proof
end

section
/-! SUPPORT. The fetch, and the step by what its instruction answers (40_step.md R100 to R108). -/

namespace Sys2Proof.Machine

variable {s t : State} {i : Instr}

/-! ## The fetch -/

/-- Where a fetch is possible, the step runs what the fetched word decodes to. -/
theorem runs_decodeWord_fetchedWord (h : s.canFetch) : runs s (decodeWord (fetchedWord s)) :=
  (runs_iff s _).mpr ⟨h, rfl⟩

theorem fetchedWord_toNat (s : State) : (fetchedWord s).toNat =
    256 * (Memory.read s.mem s.pc.toNat).toNat + (Memory.read s.mem (s.pc.toNat + 1)).toNat := by
  rw [fetchedWord, bytesWord_toNat]
  omega

/-- Settles O7: the fetch on either side of 0xFFE. -/
theorem fetchIsBigEndianOrFaults : Obligations.FetchIsBigEndianOrFaults :=
  fun s => ⟨fun hin => ⟨fetchedWord s, fetch_ok hin, fetchedWord_toNat s⟩,
    fun hout => ⟨fetch_error hout, fun hf => step_of_pc_out hf hout⟩⟩

/-! ## The step by the outcome of its instruction -/

/-- An instruction that runs to its end is followed by the tick. -/
theorem step_of_exec_next (hr : runs s i) (h : exec i s.advancePc = .next t) : step s = .next t.tickTimers := by
  rw [step_of_runs hr, h]
  rfl

/-- A fault of the instruction is recorded where the step began. -/
theorem step_of_exec_fault {c : Fault} (hr : runs s i) (h : exec i s.advancePc = .fault c) :
    step s = .next (s.takeFault c) := by
  rw [step_of_runs hr, h]
  rfl

/-- Settles O8: one outcome of the instruction in each clause. -/
theorem stepRunsDecodedInstruction : Obligations.StepRunsDecodedInstruction :=
  fun _ _ hr => ⟨fun _ h => step_of_exec_next hr h, fun _ h => step_of_exec_fault hr h⟩

/-- A completed step ran its instruction to the end. -/
theorem exec_of_completes (hr : runs s i) (h : completes s t) :
    ∃ u, exec i s.advancePc = .next u ∧ t = u.tickTimers := by
  obtain ⟨hstep, hok⟩ := h
  obtain hnext | ⟨c, -, rfl⟩ := step_cases_of_runs hr hstep
  · exact hnext
  · cases hok

/-- A step that ends with a fault recorded, and began with none, did nothing but record it. -/
theorem eq_takeFault_of_step {c : Fault} (hs : s.fault = none) (h : step s = .next t) (hc : t.fault = some c) :
    t = s.takeFault c := by
  obtain ⟨-, -, rfl⟩ | ⟨i, u, -, he, rfl⟩ | ⟨i, d, -, -, rfl⟩ := step_cases h
  · cases hc
    rfl
  · have hu : u.fault = none := (exec_fault_same he).trans hs
    cases hu.symm.trans hc
  · cases hc
    rfl

/-! ## Every step is answered -/

/-- No arm of the dispatch refuses its instruction (30_encoding.md R77). -/
theorem exec_ne_refused (i : Instr) (s : State) (r : Refusal) : exec i s ≠ .refused r := by
  cases i with
  | drw | ldB | ldMemVx | ldVxMem | skp | sknp => exact orRaise_ne_refused _ _ r
  | ldVxK =>
    simp only [exec, execLdVxK]
    split <;> nofun
  | _ => nofun

/-- Settles O12: out of range the fetch's fault is recorded, else the instruction completes or faults. -/
theorem everyStepHasNextState : Obligations.EveryStepHasNextState := by
  refine ⟨fun s hf => ?_, exec_ne_refused⟩
  by_cases hp : s.pc.toNat ≤ 0xFFE
  · have hr := runs_decodeWord_fetchedWord ⟨hf, hp⟩
    cases he : exec (decodeWord (fetchedWord s)) s.advancePc with
    | next u => exact ⟨_, step_of_exec_next hr he⟩
    | fault c => exact ⟨_, step_of_exec_fault hr he⟩
    | refused r => exact absurd he (exec_ne_refused _ _ r)
  · exact ⟨_, step_of_pc_out hf (Nat.lt_of_not_le hp)⟩

/-! ## The timers (40_step.md R104) -/

theorem exec_dt_same (h : exec i s = .next t) (hi : Part.delayTimer ∉ writtenParts i) : t.dt = s.dt :=
  (exec_changesOnly h).2 .delayTimer hi

theorem exec_st_same (h : exec i s = .next t) (hi : Part.soundTimer ∉ writtenParts i) : t.st = s.st :=
  (exec_changesOnly h).2 .soundTimer hi

theorem tickTimers_dt_toNat (s : State) : s.tickTimers.dt.toNat = s.dt.toNat - 1 := tick_toNat s.dt

theorem tickTimers_st_toNat (s : State) : s.tickTimers.st.toNat = s.st.toNat - 1 := tick_toNat s.st

/-- Settles O10: only `LD DT, Vx` and `LD ST, Vx` write a timer before the tick, and the step that records a fault
does not reach the tick. -/
theorem timersTickOncePerCompletedStep : Obligations.TimersTickOncePerCompletedStep := by
  refine ⟨fun s t i hr hc => ?_, fun s t c hs h hc => ?_⟩
  · obtain ⟨u, he, rfl⟩ := exec_of_completes hr hc
    rw [tickTimers_dt_toNat, tickTimers_st_toNat]
    constructor
    · cases i with
      | ldDTVx x => cases he; rfl
      | _ => rw [exec_dt_same he (by simp [writtenParts]), State.advancePc_dt]
    · cases i with
      | ldSTVx x => cases he; rfl
      | _ => rw [exec_st_same he (by simp [writtenParts]), State.advancePc_st]
  · rw [eq_takeFault_of_step hs h hc]
    exact ⟨rfl, rfl⟩

/-! ## The program counter (40_step.md R102) -/

theorem exec_pc_same (h : exec i s = .next t) (hi : Part.pc ∉ writtenParts i) : t.pc = s.pc :=
  (exec_changesOnly h).2 .pc hi

/-- A skip, seen from the address of its instruction. -/
theorem advancePc_skipIf_pc (s : State) (c : Bool) :
    (s.advancePc.skipIf c).pc = if c then s.pc + 4#16 else s.pc + 2#16 := by
  rw [State.skipIf_pc, State.advancePc_pc, BitVec.add_assoc]
  rfl

theorem advancePc_skipIf_pc_cases (s : State) (c : Bool) :
    (s.advancePc.skipIf c).pc = s.pc + 2#16 ∨ (s.advancePc.skipIf c).pc = s.pc + 4#16 := by
  rw [advancePc_skipIf_pc]
  cases c with
  | true => exact .inr rfl
  | false => exact .inl rfl

/-- Going back undoes the advance, across the wrap too. -/
theorem advancePc_rewindPc_pc (s : State) : s.advancePc.rewindPc.pc = s.pc :=
  BitVec.add_sub_cancel s.pc 2#16

/-- `JP V0` does not wrap: its sum is at most 0xFF + 0xFFF. -/
theorem regWide_add_target_toNat (s : State) (r : Reg) (nnn : Addr12) :
    (s.regWide r + target nnn).toNat = (s.readReg r).toNat + nnn.toNat := by
  rw [BitVec.toNat_add, State.regWide_toNat, target_toNat]
  omega

/-- The key wait goes past its instruction when a key is pressed, and else stays at it. -/
theorem exec_ldVxK_pc {x : Reg} (h : exec (.ldVxK x) s.advancePc = .next t) :
    (∃ k, s.keyPressed k = true) ∧ t.pc = s.pc + 2#16 ∨ (¬ ∃ k, s.keyPressed k = true) ∧ t.pc = s.pc := by
  simp only [exec, execLdVxK] at h
  split at h <;> cases h
  · rename_i k hk
    exact .inl ⟨⟨k, (State.lowestKey_eq_some hk).1⟩, rfl⟩
  · rename_i hk
    have hnone : ∀ k, s.keyPressed k = false := (State.lowestKey_eq_none _).mp hk
    exact .inr ⟨by simp [hnone], advancePc_rewindPc_pc s⟩

/-- Settles O11: the instructions that write `PC` one by one; every other leaves it past itself. -/
theorem nextPcOfEveryInstruction : Obligations.NextPcOfEveryInstruction := by
  intro s t i hr hc
  obtain ⟨u, he, rfl⟩ := exec_of_completes hr hc
  cases i with
  | ret => cases he; rfl
  | jp nnn | call nnn => cases he; exact target_toNat nnn
  | jpV0 nnn => cases he; exact regWide_add_target_toNat s 0 nnn
  | seImm | sneImm | seReg | sneReg => cases he; simp [advancePc_skipIf_pc, -State.skipIf_pc]
  | skp | sknp =>
    obtain ⟨k, -, rfl⟩ := orRaise_eq_next.mp he
    exact advancePc_skipIf_pc_cases s _
  | ldVxK =>
    obtain ⟨hkey, hpc⟩ | ⟨hkey, hpc⟩ := exec_ldVxK_pc he
    · exact hpc.trans (if_pos hkey).symm
    · exact hpc.trans (if_neg hkey).symm
  | _ => exact exec_pc_same he (by simp [writtenParts])

/-! ## Instructions that do nothing (40_step.md R105) -/

/-- The step of an instruction that changes nothing: past it, with the timers ticked. -/
theorem step_of_exec_self (hr : runs s i) (h : ∀ u, exec i u = .next u) : ∃ t, step s = .next t ∧
    t.pc = s.pc + 2#16 ∧ t.dt.toNat = s.dt.toNat - 1 ∧ t.st.toNat = s.st.toNat - 1 ∧
      changesOnly [] [.pc, .delayTimer, .soundTimer] s t :=
  ⟨_, step_of_exec_next hr (h _), rfl, tickTimers_dt_toNat _, tickTimers_st_toNat _,
    changesOnly_trans (changesOnly_setPc s _) (changesOnly_tickTimers _)⟩

/-- The no-op of an opcode that matches no row. -/
theorem exec_unrecognised (op : Word) (s : State) : exec (.unrecognised op) s = .next s := rfl

/-- Settles O26: the step of an instruction that changes nothing. -/
theorem unrecognisedOpcodeIsNoOp : Obligations.UnrecognisedOpcodeIsNoOp :=
  ⟨exec_unrecognised, fun _ op hr => step_of_exec_self hr (exec_unrecognised op)⟩

end Sys2Proof.Machine
end

section
/-! SUPPORT. Control flow: nested calls and returns, jumps, skips and the instructions that do nothing
(41_control_flow.md). -/

namespace Sys2Proof.Machine

/-! ## Nested calls and returns (R121, R123; decision D8) -/

theorem exec_call (nnn : Addr12) (s : State) : exec (.call nnn) s = .next (s.pushPc.setPc (target nnn)) := rfl

theorem exec_ret (s : State) : exec .ret s = .next s.popPc := rfl

/-- The slot that the (`k` + 1)-th of a row of returns reads, from pointer `p`: each moves the pointer down. -/
def slotBelow (p : Fin 16) : Nat → Fin 16
  | 0 => p - 1
  | k + 1 => slotBelow (p - 1) k

theorem slotBelow_val (p : Fin 16) (k : Nat) : (slotBelow p k).val = (p.val + 15 * (k + 1)) % 16 := by
  induction k generalizing p with
  | zero => rw [slotBelow, Fin.val_sub, Fin.val_one]; omega
  | succ k ih => rw [slotBelow, ih, Fin.val_sub, Fin.val_one]; omega

/-- Fewer than 16 slots down, the wrap has not come round to the pointer itself. -/
theorem slotBelow_ne_self (p : Fin 16) {k : Nat} (hk : k < 15) : slotBelow p k ≠ p := by
  rw [Ne, Fin.ext_iff, slotBelow_val]
  omega

theorem slotBelow_add_one_succ (p : Fin 16) (k : Nat) : slotBelow (p + 1) (k + 1) = slotBelow p k := by
  rw [slotBelow, add_sub_cancel_right]

/-- The entry that the (`k` + 1)-th of a row of returns pops. -/
def State.entryBelow (s : State) (k : Nat) : Word := s.stack[(slotBelow s.sp k).val]

theorem returnMany_pc (k : Nat) (s : State) : (returnMany (k + 1) s).pc = s.entryBelow k := by
  induction k generalizing s with
  | zero => rfl
  | succ k ih => exact ih s.popPc

theorem entryBelow_pushPc_zero (s : State) : s.pushPc.entryBelow 0 = s.pc := by
  simp [State.entryBelow, slotBelow]

/-- A push moves every entry one return further away, until the 16th, which it overwrites. -/
theorem entryBelow_pushPc_succ (s : State) {k : Nat} (hk : k < 15) :
    s.pushPc.entryBelow (k + 1) = s.entryBelow k := by
  have hne : s.sp.val ≠ (slotBelow s.sp k).val := fun h => slotBelow_ne_self s.sp hk (Fin.ext h.symm)
  simp [State.entryBelow, slotBelow_add_one_succ, hne]

theorem entryBelow_setPc (s : State) (a : Word) (k : Nat) : (s.setPc a).entryBelow k = s.entryBelow k := rfl

/-- The last of a row of nested calls is made in the state the others leave. -/
theorem callAll_concat (nnn : Addr12) (s : State) (ras : List Word) (ra : Word) :
    callAll nnn s (ras ++ [ra]) = ((callAll nnn s ras).setPc ra).pushPc.setPc (target nnn) := by
  induction ras generalizing s with
  | nil => rfl
  | cons _ _ ih => exact ih _

/-- Nested calls leave their return addresses below the pointer, the most recent first, as far as 16 slots go. -/
theorem entryBelow_callAll (nnn : Addr12) (s : State) (ras : List Word) (k : Nat) (ra : Word) (hk : k < 16)
    (h : ras.reverse[k]? = some ra) : (callAll nnn s ras).entryBelow k = ra := by
  induction ras using List.reverseRecOn generalizing k with
  | nil => simp at h
  | append_singleton ras last ih =>
    rw [callAll_concat, entryBelow_setPc]
    rw [List.reverse_concat] at h
    cases k with
    | zero =>
      rw [entryBelow_pushPc_zero]
      exact Option.some.inj h
    | succ k =>
      rw [entryBelow_pushPc_succ _ (by omega), entryBelow_setPc]
      exact ih k (by omega) h

/-- Settles O32: the returns pop what the calls left below the pointer. -/
theorem returnsGiveLatestSixteenCalls : Obligations.ReturnsGiveLatestSixteenCalls :=
  fun nnn s ras k ra hk h => (returnMany_pc k _).trans (entryBelow_callAll nnn s ras k ra hk h)

/-- Settles O30: the push writes the slot at the pointer and moves it; the jump leaves the stack alone. -/
theorem callPushesReturnAddress : Obligations.CallPushesReturnAddress := by
  intro nnn s
  refine ⟨_, exec_call nnn s, target_toNat nnn, Fin.val_add s.sp 1, ?_, fun p hp => ?_, ?_⟩
  · simp
  · have hne : s.sp.val ≠ p.val := fun h => hp (Fin.ext h.symm)
    simp [hne]
  · exact changesOnly_mono (exec_changesOnly (exec_call nnn s)) (List.Subset.refl _) (by simp [writtenParts])

/-- Settles O31: the pop moves the pointer and reads the slot there. -/
theorem retPopsReturnAddress : Obligations.RetPopsReturnAddress := by
  intro s
  refine ⟨_, exec_ret s, ?_, rfl, fun _ => rfl, ?_⟩
  · rw [State.popPc_sp, Fin.val_sub, Fin.val_one, Nat.add_comm]
  · exact changesOnly_mono (changesOnly_popPc s) (List.Subset.refl _) (by simp)

/-! ## CLS and SYS (R120, R129) -/

theorem exec_cls (s : State) : exec .cls s = .next (s.setFb Framebuffer.clear) := rfl

/-- Settles O25: the display is replaced by the clear one. -/
theorem clsClearsEveryPixel : Obligations.ClsClearsEveryPixel :=
  ⟨rfl, fun s => ⟨_, exec_cls s, Framebuffer.pixel_clear, changesOnly_setFb s _⟩⟩

theorem decodeWord_sys {op : Word} (hf : fieldF op = 0) (hcls : op ≠ 0x00E0#16) (hret : op ≠ 0x00EE#16) :
    decodeWord op = .sys (fieldNNN op) := by
  have hcls' : fieldNNN op ≠ 0x0E0#12 := fun h => hcls ((eq_clsWord_iff op).mpr ⟨hf, h⟩)
  have hret' : fieldNNN op ≠ 0x0EE#12 := fun h => hret ((eq_retWord_iff op).mpr ⟨hf, h⟩)
  exact (decodeWord_family0 hf).trans ((if_neg hcls').trans (if_neg hret'))

theorem exec_sys (nnn : Addr12) (s : State) : exec (.sys nnn) s = .next s := rfl

/-- Settles O27: family 0 off its two words, and the step of an instruction that changes nothing. -/
theorem sysIsNoOp : Obligations.SysIsNoOp := by
  refine ⟨fun op hf hcls hret => ⟨fieldNNN op, ?_, ?_⟩, exec_sys, fun _ nnn hr => step_of_exec_self hr (exec_sys nnn)⟩
  · exact decodeWord_sys ((fieldF_eq_iff op 0).mpr hf) hcls hret
  · rw [fieldNNN_toNat]
    omega

/-! ## Jumps (R122, R128) -/

theorem exec_jp (nnn : Addr12) (s : State) : exec (.jp nnn) s = .next (s.setPc (target nnn)) := rfl

theorem exec_jpV0 (nnn : Addr12) (s : State) :
    exec (.jpV0 nnn) s = .next (s.setPc (s.regWide 0 + target nnn)) := rfl

/-- From a target above 0xFFE nothing can be fetched (decision D6). -/
theorem step_setPc_out {s : State} {a : Word} (hf : s.fault = none) (ha : 0xFFE < a.toNat) :
    step (s.setPc a) = .next ((s.setPc a).setFault (some (.fetchOutOfRange a))) :=
  step_of_pc_out hf ha

/-- The step of a jump to its own address is the tick alone. -/
theorem step_of_self_jump {s : State} {nnn : Addr12} (hr : runs s (.jp nnn)) (hpc : s.pc.toNat = nnn.toNat) :
    step s = .next s.tickTimers := by
  have htarget : target nnn = s.pc := BitVec.eq_of_toNat_eq ((target_toNat nnn).trans hpc.symm)
  rw [step_of_exec_next hr (exec_jp nnn _), htarget]
  rfl

/-- Settles O28: the jump from any state, from there with target 0xFFF, and onto itself. -/
theorem jumpSetsPc : Obligations.JumpSetsPc := by
  refine ⟨opcodesNNN_of_decodeWord (f := 0x1#4) fun _ => decodeWord_family1, fun nnn s => ?_, fun s nnn hr hpc => ?_⟩
  · refine ⟨_, exec_jp nnn s, target_toNat nnn, changesOnly_setPc s _, ?_⟩
    rintro rfl hf
    exact step_setPc_out hf (by decide)
  · exact ⟨_, step_of_self_jump hr hpc, tickTimers_dt_toNat s, tickTimers_st_toNat s, changesOnly_tickTimers s⟩

/-- Settles O29: the sum does not wrap, so one above 0xFFE is a `PC` out of the range of a fetch. -/
theorem indexedJumpAddsV0 : Obligations.IndexedJumpAddsV0 := by
  intro nnn s
  have hsum : (s.regWide 0 + target nnn).toNat = (s.readReg 0).toNat + nnn.toNat := regWide_add_target_toNat s 0 nnn
  exact ⟨_, exec_jpV0 nnn s, hsum, changesOnly_setPc s _, fun hout hf => step_setPc_out hf (hsum ▸ hout)⟩

/-! ## Skips (R124 to R127) -/

theorem exec_seImm (x : Reg) (kk : Byte) (s : State) :
    exec (.seImm x kk) s = .next (s.skipIf (s.readReg x == kk)) := rfl

theorem exec_sneImm (x : Reg) (kk : Byte) (s : State) :
    exec (.sneImm x kk) s = .next (s.skipIf (s.readReg x != kk)) := rfl

theorem exec_seReg (x y : Reg) (s : State) :
    exec (.seReg x y) s = .next (s.skipIf (s.readReg x == s.readReg y)) := rfl

theorem exec_sneReg (x y : Reg) (s : State) :
    exec (.sneReg x y) s = .next (s.skipIf (s.readReg x != s.readReg y)) := rfl

theorem skipIf_beq_pc (s : State) (a b : Byte) : (s.skipIf (a == b)).pc = if a = b then s.pc + 2#16 else s.pc := by
  simp

theorem skipIf_bne_pc (s : State) (a b : Byte) : (s.skipIf (a != b)).pc = if a = b then s.pc else s.pc + 2#16 := by
  simp

/-- Settles O33: the two families, and the skip on either comparison. -/
theorem skipsComparingImmediate : Obligations.SkipsComparingImmediate :=
  ⟨opcodesXKK_of_decodeWord (f := 0x3#4) fun _ => decodeWord_family3,
    opcodesXKK_of_decodeWord (f := 0x4#4) fun _ => decodeWord_family4,
    fun x kk s => ⟨⟨_, exec_seImm x kk s, changesOnly_skipIf s _, skipIf_beq_pc s _ _⟩,
      ⟨_, exec_sneImm x kk s, changesOnly_skipIf s _, skipIf_bne_pc s _ _⟩⟩⟩

theorem opcodesXYS_seReg : opcodesXYS 0x5 0 .seReg :=
  opcodesXYS_of_decodeWord (f := 0x5#4) (n := 0x0#4) fun _ hf hn => (decodeWord_family5 hf).trans (if_pos hn)

theorem opcodesXYS_sneReg : opcodesXYS 0x9 0 .sneReg :=
  opcodesXYS_of_decodeWord (f := 0x9#4) (n := 0x0#4) fun _ hf hn => (decodeWord_family9 hf).trans (if_pos hn)

/-- Settles O34: the two families and their unrecognised neighbours, and the skip on either comparison; a register
compared with itself is equal. -/
theorem skipsComparingRegisters : Obligations.SkipsComparingRegisters := by
  refine ⟨opcodesXYS_seReg, opcodesXYS_sneReg, fun op hf hn => ?_, fun x y s => ⟨?_, ?_⟩⟩
  · apply (unrecognisedOpcodesAreThoseListed op).mpr
    obtain h5 | h9 := hf
    · exact .inl ⟨h5, hn⟩
    · exact .inr (.inr (.inl ⟨h9, hn⟩))
  · refine ⟨_, exec_seReg x y s, changesOnly_skipIf s _, skipIf_beq_pc s _ _, ?_⟩
    rintro rfl
    exact (skipIf_beq_pc s _ _).trans (if_pos rfl)
  · refine ⟨_, exec_sneReg x y s, changesOnly_skipIf s _, skipIf_bne_pc s _ _, ?_⟩
    rintro rfl
    exact (skipIf_bne_pc s _ _).trans (if_pos rfl)

end Sys2Proof.Machine
end

section
/-! SUPPORT. Arithmetic and logic (42_arith_logic.md): what each instruction writes, and the flags and results as
numbers. -/

namespace Sys2Proof.Machine

variable {s : State} {i : Instr} {x : Reg} {b : Byte} {c : Bool}

/-! ## Instructions that write a result and a flag (R156 to R160; decision D1) -/

theorem exec_addReg (x y : Reg) (s : State) : exec (.addReg x y) s =
    .next (s.writeResultFlag x (s.readReg x + s.readReg y) (carry (s.readReg x) (s.readReg y))) := rfl

theorem exec_subReg (x y : Reg) (s : State) : exec (.subReg x y) s =
    .next (s.writeResultFlag x (s.readReg x - s.readReg y) (noBorrow (s.readReg x) (s.readReg y))) := rfl

theorem exec_subn (x y : Reg) (s : State) : exec (.subn x y) s =
    .next (s.writeResultFlag x (s.readReg y - s.readReg x) (noBorrow (s.readReg y) (s.readReg x))) := rfl

theorem exec_shr (x y : Reg) (s : State) : exec (.shr x y) s =
    .next (s.writeResultFlag x (s.readReg x >>> 1) (lowBit (s.readReg x))) := rfl

theorem exec_shl (x y : Reg) (s : State) : exec (.shl x y) s =
    .next (s.writeResultFlag x (s.readReg x <<< 1) (highBit (s.readReg x))) := rfl

theorem readReg_writeResultFlag_flag (s : State) (x : Reg) (b : Byte) (c : Bool) :
    (s.writeResultFlag x b c).readReg flagReg = flagByte c :=
  (s.readReg_writeResultFlag x flagReg b c).trans (if_pos rfl)

theorem readReg_writeResultFlag_self (s : State) (b : Byte) (c : Bool) (hx : x ≠ flagReg) :
    (s.writeResultFlag x b c).readReg x = b := by
  rw [State.readReg_writeResultFlag, if_neg hx, if_pos rfl]

/-- What an instruction that writes a result and then a flag leaves, the two read as numbers. -/
theorem exec_resultFlag {result flag : Nat} (h : exec i s = .next (s.writeResultFlag x b c))
    (hb : b.toNat = result) (hc : (flagByte c).toNat = flag) : ∃ t, exec i s = .next t ∧
      (x ≠ flagReg → (t.readReg x).toNat = result) ∧ (t.readReg flagReg).toNat = flag ∧
      changesOnly [x, flagReg] [] s t := by
  refine ⟨_, h, fun hx => ?_, ?_, changesOnly_writeResultFlag s x b c⟩
  · rw [readReg_writeResultFlag_self s b c hx, hb]
  · rw [readReg_writeResultFlag_flag, hc]

/-! ### The flags as numbers -/

theorem flagByte_decide_toNat (p : Prop) [Decidable p] : (flagByte (decide p)).toNat = if p then 1 else 0 := by
  by_cases hp : p <;> simp [flagByte, hp]

theorem flagByte_carry_toNat (a b : Byte) :
    (flagByte (carry a b)).toNat = if 255 < a.toNat + b.toNat then 1 else 0 :=
  flagByte_decide_toNat _

theorem flagByte_noBorrow_toNat (a b : Byte) :
    (flagByte (noBorrow a b)).toNat = if b.toNat ≤ a.toNat then 1 else 0 :=
  flagByte_decide_toNat _

/-- A flag made of one bit of a byte is that digit of its number. -/
theorem flagByte_getLsbD_toNat (a : Byte) (k : Nat) : (flagByte (a.getLsbD k)).toNat = a.toNat / 2 ^ k % 2 := by
  rw [BitVec.getLsbD, Nat.testBit_eq_decide_div_mod_eq, flagByte_decide_toNat]
  split <;> omega

theorem flagByte_lowBit_toNat (a : Byte) : (flagByte (lowBit a)).toNat = a.toNat % 2 := by
  rw [lowBit, flagByte_getLsbD_toNat, pow_zero, Nat.div_one]

/-- Bit 7 is the topmost digit. -/
theorem flagByte_highBit_toNat (a : Byte) : (flagByte (highBit a)).toNat = a.toNat / 128 := by
  rw [highBit, flagByte_getLsbD_toNat]
  omega

/-! ### The results as numbers -/

theorem sub_toNat_mod (a b : Byte) : (a - b).toNat = (a.toNat + 256 - b.toNat) % 256 := by
  rw [BitVec.toNat_sub]
  omega

theorem ushiftRight_one_toNat (a : Byte) : (a >>> 1).toNat = a.toNat / 2 := by
  rw [BitVec.toNat_ushiftRight, Nat.shiftRight_one]

theorem shiftLeft_one_toNat (a : Byte) : (a <<< 1).toNat = 2 * a.toNat % 256 := by
  rw [BitVec.toNat_shiftLeft, Nat.shiftLeft_eq, pow_one, Nat.mul_comm]

/-- Settles O38: the sum, and the carry as a number. -/
theorem addRegistersSetsCarry : Obligations.AddRegistersSetsCarry := fun x y s =>
  exec_resultFlag (exec_addReg x y s) (BitVec.toNat_add _ _) (flagByte_carry_toNat _ _)

/-- Settles O39: the two differences, and the comparison that says no borrow is needed. -/
theorem subtractionsSetNoBorrow : Obligations.SubtractionsSetNoBorrow := fun x y s =>
  ⟨exec_resultFlag (exec_subReg x y s) (sub_toNat_mod _ _) (flagByte_noBorrow_toNat _ _),
    exec_resultFlag (exec_subn x y s) (sub_toNat_mod _ _) (flagByte_noBorrow_toNat _ _)⟩

/-- Settles O40: halving with the lowest digit as the flag, doubling with the topmost. -/
theorem shiftsMoveOneBit : Obligations.ShiftsMoveOneBit := fun x y s =>
  ⟨exec_resultFlag (exec_shr x y s) (ushiftRight_one_toNat _) (flagByte_lowBit_toNat _),
    exec_resultFlag (exec_shl x y s) (shiftLeft_one_toNat _) (flagByte_highBit_toNat _)⟩

/-! ## Instructions that write a result alone (R150 to R155) -/

theorem exec_ldImm (x : Reg) (kk : Byte) (s : State) : exec (.ldImm x kk) s = .next (s.writeReg x kk) := rfl

theorem exec_ldReg (x y : Reg) (s : State) : exec (.ldReg x y) s = .next (s.writeReg x (s.readReg y)) := rfl

theorem exec_addImm (x : Reg) (kk : Byte) (s : State) :
    exec (.addImm x kk) s = .next (s.writeReg x (s.readReg x + kk)) := rfl

theorem exec_orReg (x y : Reg) (s : State) :
    exec (.orReg x y) s = .next (s.writeReg x (s.readReg x ||| s.readReg y)) := rfl

theorem exec_andReg (x y : Reg) (s : State) :
    exec (.andReg x y) s = .next (s.writeReg x (s.readReg x &&& s.readReg y)) := rfl

theorem exec_xorReg (x y : Reg) (s : State) :
    exec (.xorReg x y) s = .next (s.writeReg x (s.readReg x ^^^ s.readReg y)) := rfl

/-- What an instruction that writes one register leaves: there the byte written. -/
theorem exec_result (h : exec i s = .next (s.writeReg x b)) :
    ∃ t, exec i s = .next t ∧ t.readReg x = b ∧ changesOnly [x] [] s t :=
  ⟨_, h, s.readReg_writeReg_self x b, changesOnly_writeReg s x b⟩

/-- The same, the byte written read bit by bit. -/
theorem exec_resultBits {bit : Nat → Bool} (h : exec i s = .next (s.writeReg x b)) (hb : ∀ k, b.getLsbD k = bit k) :
    ∃ t, exec i s = .next t ∧ changesOnly [x] [] s t ∧ ∀ k, (t.readReg x).getLsbD k = bit k := by
  obtain ⟨t, ht, rfl, hframe⟩ := exec_result h
  exact ⟨t, ht, hframe, hb⟩

theorem opcodesXYS_ldReg : opcodesXYS 0x8 0 .ldReg :=
  opcodesXYS_of_decodeWord (f := 0x8#4) (n := 0x0#4) fun _ hf hn => (decodeWord_family8 hf).trans (if_pos hn)

theorem opcodesXKK_addImm : opcodesXKK 0x7 .addImm :=
  opcodesXKK_of_decodeWord (f := 0x7#4) fun _ => decodeWord_family7

/-- Settles O35: the family and the write of the immediate. -/
theorem loadImmediateWritesRegister : Obligations.LoadImmediateWritesRegister :=
  ⟨opcodesXKK_ldImm, fun x kk s => exec_result (exec_ldImm x kk s)⟩

/-- Settles O36: the two families, the write of the copy and the write of the sum. -/
theorem copyAndAddImmediateSetNoFlag : Obligations.CopyAndAddImmediateSetNoFlag := by
  refine ⟨opcodesXYS_ldReg, opcodesXKK_addImm, fun x y kk s => ⟨exec_result (exec_ldReg x y s), ?_⟩⟩
  obtain ⟨t, ht, hx, hframe⟩ := exec_result (exec_addImm x kk s)
  exact ⟨t, ht, hx ▸ BitVec.toNat_add _ _, hframe⟩

/-- Settles O37: the three bitwise operations of the library, bit by bit. -/
theorem bitwiseOperationsPerBit : Obligations.BitwiseOperationsPerBit := fun x y s =>
  ⟨exec_resultBits (exec_orReg x y s) fun _ => BitVec.getLsbD_or,
    exec_resultBits (exec_andReg x y s) fun _ => BitVec.getLsbD_and,
    exec_resultBits (exec_xorReg x y s) fun _ => BitVec.getLsbD_xor⟩

/-! ## RND (R161; decision D16) -/

theorem exec_rnd (x : Reg) (kk : Byte) (s : State) :
    exec (.rnd x kk) s = .next (s.writeReg x (Config.randomByte s.draws &&& kk)).countDraw := rfl

/-- Settles O41: the masked byte is written and its draw counted. -/
theorem randomByteIsMasked : Obligations.RandomByteIsMasked := by
  intro x kk s
  refine ⟨_, exec_rnd x kk s, ?_, rfl, fun k => ?_⟩
  · exact changesOnly_trans (changesOnly_writeReg s x _) (changesOnly_countDraw _)
  · rw [State.readReg_countDraw, State.readReg_writeReg_self, BitVec.getLsbD_and, Bool.and_comm]

end Sys2Proof.Machine
end

section
/-! SUPPORT. The sprite draw (43_display.md): a draw inverts a set of pixels, each once, and so reports a set pixel
among them. -/

namespace Sys2Proof.Machine

variable {P Q : Fin 32 → Fin 64 → Prop} {d d' d'' : Drawing} {s t u : State} {x y : Reg} {n : Nibble}

/-! ## Drawings that invert a set of pixels -/

/-- From `d` to `d'` the pixels in `P` are inverted and no other, and the collision flag takes in whether one of them
was set. -/
structure Drawing.Inverts (P : Fin 32 → Fin 64 → Prop) (d d' : Drawing) : Prop where
  inside : ∀ r c, P r c → d'.1.pixel r c = !d.1.pixel r c
  outside : ∀ r c, ¬ P r c → d'.1.pixel r c = d.1.pixel r c
  collision : d'.2 = true ↔ d.2 = true ∨ ∃ r c, P r c ∧ d.1.pixel r c = true

theorem Drawing.inverts_none (h : ∀ r c, ¬ P r c) (d : Drawing) : Drawing.Inverts P d d :=
  ⟨fun r c hp => absurd hp (h r c), fun _ _ _ => rfl, by simp [h]⟩

/-- Disjoint sets of pixels inverted one after the other: the second draw meets its pixels as they were. -/
theorem Drawing.Inverts.trans (h : Drawing.Inverts P d d') (h' : Drawing.Inverts Q d' d'')
    (hPQ : ∀ r c, P r c → ¬ Q r c) : Drawing.Inverts (fun r c => P r c ∨ Q r c) d d'' := by
  have hQ : ∀ r c, Q r c → d'.1.pixel r c = d.1.pixel r c := fun r c hq => h.outside r c fun hp => hPQ r c hp hq
  refine ⟨fun r c hpq => ?_, fun r c hpq => ?_, ?_⟩
  · rcases hpq with hp | hq
    · rw [h'.outside r c (hPQ r c hp), h.inside r c hp]
    · rw [h'.inside r c hq, hQ r c hq]
  · rw [not_or] at hpq
    rw [h'.outside r c hpq.2, h.outside r c hpq.1]
  · have hmet : (∃ r c, Q r c ∧ d'.1.pixel r c = true) ↔ ∃ r c, Q r c ∧ d.1.pixel r c = true :=
      exists_congr fun r => exists_congr fun c => and_congr_right fun hq => by rw [hQ r c hq]
    rw [h'.collision, h.collision, hmet, or_assoc]
    simp only [or_and_right, exists_or]

theorem Drawing.Inverts.congr (h : Drawing.Inverts P d d') (hPQ : ∀ r c, P r c ↔ Q r c) : Drawing.Inverts Q d d' :=
  (funext fun r => funext fun c => propext (hPQ r c) : P = Q) ▸ h

theorem drawBit_inverts (r : Fin 32) (c : Fin 64) (bit : Bool) (d : Drawing) :
    Drawing.Inverts (fun r' c' => bit = true ∧ r' = r ∧ c' = c) d (drawBit r c bit d) := by
  cases bit with
  | false => exact Drawing.inverts_none (by simp) d
  | true =>
    refine ⟨fun r' c' hp => ?_, fun r' c' hp => ?_, ?_⟩
    · exact (Framebuffer.pixel_toggle _ _ _ _ _).trans (if_pos hp.2)
    · exact (Framebuffer.pixel_toggle _ _ _ _ _).trans (if_neg fun h => hp ⟨rfl, h⟩)
    · simp [drawBit]

/-! ## One sprite byte -/

/-- Pixel `(r, c)` lies under one of the first `k` bits of the sprite byte `b` drawn in row `r0` from column `x0`. -/
def byteCovers (x0 : Nat) (r0 : Fin 32) (b : Byte) (k : Nat) (r : Fin 32) (c : Fin 64) : Prop :=
  ∃ col, col < k ∧ spriteBit b col = true ∧ r = r0 ∧ c = wrapColumn (x0 + col)

theorem byteCovers_succ (x0 : Nat) (r0 : Fin 32) (b : Byte) (k : Nat) (r : Fin 32) (c : Fin 64) :
    byteCovers x0 r0 b (k + 1) r c ↔
      byteCovers x0 r0 b k r c ∨ (spriteBit b k = true ∧ r = r0 ∧ c = wrapColumn (x0 + k)) := by
  simp only [byteCovers, Nat.lt_succ_iff_lt_or_eq, or_and_right, exists_or, exists_eq_left]

/-- Columns fewer than 64 apart do not wrap onto each other. -/
theorem wrapColumn_ne {i j : Nat} (hij : i < j) (hj : j < i + 64) : wrapColumn i ≠ wrapColumn j := by
  rw [Ne, wrapColumn, wrapColumn, Fin.mk.injEq]
  omega

/-- Rows fewer than 32 apart do not wrap onto each other. -/
theorem wrapRow_ne {i j : Nat} (hij : i < j) (hj : j < i + 32) : wrapRow i ≠ wrapRow j := by
  rw [Ne, wrapRow, wrapRow, Fin.mk.injEq]
  omega

theorem drawBits_inverts (x0 : Nat) (r0 : Fin 32) (b : Byte) (d : Drawing) {k : Nat} (hk : k ≤ 64) :
    Drawing.Inverts (byteCovers x0 r0 b k) d
      ((List.range k).foldl (fun e col => drawBit r0 (wrapColumn (x0 + col)) (spriteBit b col) e) d) := by
  induction k with
  | zero => exact Drawing.inverts_none (by simp [byteCovers]) d
  | succ k ih =>
    rw [List.range_succ, List.foldl_append]
    refine ((ih (by omega)).trans (drawBit_inverts _ _ _ _) ?_).congr fun r c => (byteCovers_succ x0 r0 b k r c).symm
    rintro r c ⟨col, hcol, -, -, rfl⟩ ⟨-, -, hc⟩
    exact wrapColumn_ne (by omega) (by omega) hc

theorem drawByte_inverts (x0 : Nat) (r0 : Fin 32) (b : Byte) (d : Drawing) :
    Drawing.Inverts (byteCovers x0 r0 b 8) d (drawByte x0 r0 b d) :=
  drawBits_inverts x0 r0 b d (by decide)

/-! ## The sprite -/

/-- Pixel `(r, c)` lies under a set bit of the sprite bytes `bs` drawn from row `y0` and column `x0`. -/
def bytesCover (x0 y0 : Nat) (bs : List Byte) (r : Fin 32) (c : Fin 64) : Prop :=
  ∃ row b, bs[row]? = some b ∧ byteCovers x0 (wrapRow (y0 + row)) b 8 r c

theorem bytesCover_cons (x0 y0 : Nat) (b : Byte) (bs : List Byte) (r : Fin 32) (c : Fin 64) :
    bytesCover x0 y0 (b :: bs) r c ↔ byteCovers x0 (wrapRow y0) b 8 r c ∨ bytesCover x0 (y0 + 1) bs r c := by
  constructor
  · rintro ⟨_ | row, b', hb, hc⟩
    · obtain rfl : b = b' := Option.some.inj hb
      exact .inl hc
    · exact .inr ⟨row, b', hb, by rwa [Nat.add_assoc, Nat.add_comm 1]⟩
  · rintro (hc | ⟨row, b', hb, hc⟩)
    · exact ⟨0, b, rfl, hc⟩
    · exact ⟨row + 1, b', hb, by rwa [Nat.add_assoc, Nat.add_comm 1] at hc⟩

theorem drawSprite_inverts (x0 y0 : Nat) (bs : List Byte) (d : Drawing) (hbs : bs.length ≤ 32) :
    Drawing.Inverts (bytesCover x0 y0 bs) d (drawSprite x0 y0 bs d) := by
  induction bs generalizing y0 d with
  | nil => exact Drawing.inverts_none (by simp [bytesCover]) d
  | cons b bs ih =>
    rw [List.length_cons] at hbs
    refine ((drawByte_inverts x0 (wrapRow y0) b d).trans (ih (y0 + 1) _ (by omega)) ?_).congr
      fun r c => (bytesCover_cons x0 y0 b bs r c).symm
    rintro r c ⟨_, -, -, rfl, -⟩ ⟨row, _, hb, _, -, -, hr, -⟩
    obtain ⟨hrow, -⟩ := List.getElem?_eq_some_iff.mp hb
    exact wrapRow_ne (by omega) (by omega) hr

theorem bytesAtIndex_getElem?_eq_some {s : State} {m row : Nat} {b : Byte} :
    (bytesAtIndex s m)[row]? = some b ↔ row < m ∧ Memory.read s.mem (s.i.toNat + row) = b := by
  simp [bytesAtIndex, List.getElem?_eq_some_iff]

theorem bytesCover_bytesAtIndex (s : State) (x y : Reg) (n : Nibble) (r : Fin 32) (c : Fin 64) :
    bytesCover ((s.readReg x).toNat % 64) ((s.readReg y).toNat % 32) (bytesAtIndex s n.toNat) r c ↔
      spriteCovers s x y n r c := by
  constructor
  · rintro ⟨row, b, hb, col, hcol, hbit, rfl, rfl⟩
    obtain ⟨hrow, rfl⟩ := bytesAtIndex_getElem?_eq_some.mp hb
    exact ⟨row, col, hrow, hcol, hbit, rfl, rfl⟩
  · rintro ⟨row, col, hrow, hcol, hbit, hr, hc⟩
    exact ⟨row, _, bytesAtIndex_getElem?_eq_some.mpr ⟨hrow, rfl⟩, col, hcol, hbit, Fin.ext hr, Fin.ext hc⟩

/-- A draw inverts the pixels under its sprite. -/
theorem drawn_inverts (s : State) (x y : Reg) (n : Nibble) :
    Drawing.Inverts (spriteCovers s x y n) (s.fb, false) (drawn s x y n) :=
  (drawSprite_inverts _ _ _ _ (by simp [bytesAtIndex]; omega)).congr (bytesCover_bytesAtIndex s x y n)

/-- The covered pixels depend on memory, `I` and the two coordinates alone. -/
theorem spriteCovers_congr (n : Nibble) (hmem : u.mem = s.mem) (hi : u.i = s.i) (hx : u.readReg x = s.readReg x)
    (hy : u.readReg y = s.readReg y) : spriteCovers u x y n = spriteCovers s x y n := by
  unfold spriteCovers
  rw [hmem, hi, hx, hy]

/-! ## DRW (R180 to R183; decisions D12, D13) -/

/-- `DRW` completes exactly when its sprite is empty or lies within memory, and then shows what it draws. -/
theorem exec_drw_eq_next_iff (s t : State) (x y : Reg) (n : Nibble) : exec (.drw x y n) s = .next t ↔
    (n = 0#4 ∨ s.i.toNat + n.toNat ≤ 0x1000) ∧ (s.setFb (drawn s x y n).1).writeFlag (drawn s x y n).2 = t := by
  have hn : n = 0#4 ↔ n.toNat = 0 := BitVec.toNat_inj.symm
  rw [exec_drw, hn]
  split
  · exact iff_of_false nofun (by omega)
  · rw [Host.Outcome.next.injEq, iff_and_self]
    omega

theorem flagByte_eq_one (c : Bool) : flagByte c = 1#8 ↔ c = true := by cases c <;> decide

/-- What a completed `DRW` did to the framebuffer, with VF as the collision flag. -/
theorem drw_inverts (h : exec (.drw x y n) s = .next t) :
    ∃ c, t.readReg flagReg = flagByte c ∧ Drawing.Inverts (spriteCovers s x y n) (s.fb, false) (t.fb, c) := by
  obtain ⟨-, rfl⟩ := (exec_drw_eq_next_iff s t x y n).mp h
  exact ⟨_, State.readReg_writeReg_self (s := s.setFb _) flagReg _, drawn_inverts s x y n⟩

theorem drw_flag_eq_one_iff (h : exec (.drw x y n) s = .next t) :
    t.readReg flagReg = 1#8 ↔ ∃ r c, spriteCovers s x y n r c ∧ Framebuffer.pixel s.fb r c = true := by
  obtain ⟨c, hflag, hinv⟩ := drw_inverts h
  rw [hflag, flagByte_eq_one, hinv.collision]
  exact or_iff_right Bool.false_ne_true

/-- Settles O42: the frame of every instruction, and the pixels a draw inverts. -/
theorem drawInvertsCoveredPixels : Obligations.DrawInvertsCoveredPixels := by
  intro x y n s hfit
  have ht := (exec_drw_eq_next_iff s _ x y n).mpr ⟨hfit, rfl⟩
  obtain ⟨_, -, hinv⟩ := drw_inverts ht
  exact ⟨_, ht, exec_changesOnly ht, fun r c => ⟨hinv.inside r c, hinv.outside r c⟩⟩

/-- Settles O43: the flag is 1 exactly on a collision, and the only other flag is 0. -/
theorem drawReportsCollision : Obligations.DrawReportsCollision := by
  intro x y n s t h
  have hone := drw_flag_eq_one_iff h
  refine ⟨hone.mpr, fun hclear => ?_⟩
  obtain ⟨c, hflag, -⟩ := drw_inverts h
  cases c with
  | false => exact hflag
  | true =>
    obtain ⟨r, c, hcov, hset⟩ := hone.mp hflag
    exact absurd (hclear r c hcov) (ne_false_of_eq_true hset)

/-- Settles O44: the second draw covers the same pixels, each inverted by the first. -/
theorem drawTwiceRestoresPixels : Obligations.DrawTwiceRestoresPixels := by
  intro x y n s t u h hfb hmem hi hx hy
  have hcov : spriteCovers u x y n = spriteCovers s x y n := spriteCovers_congr n hmem hi hx hy
  obtain ⟨hfit, -⟩ := (exec_drw_eq_next_iff s t x y n).mp h
  have hw := (exec_drw_eq_next_iff u _ x y n).mpr ⟨by rwa [hi], rfl⟩
  obtain ⟨_, -, hfirst⟩ := drw_inverts h
  obtain ⟨_, -, hsecond⟩ := drw_inverts hw
  have hflag := drw_flag_eq_one_iff hw
  rw [hcov, hfb] at hsecond hflag
  refine ⟨_, hw, fun r c => ?_, hflag.trans ?_⟩
  · by_cases hc : spriteCovers s x y n r c
    · rw [hsecond.inside r c hc, hfirst.inside r c hc, Bool.not_not]
    · rw [hsecond.outside r c hc, hfirst.outside r c hc]
  · refine exists_congr fun r => exists_congr fun c => and_congr_right fun hc => ?_
    rw [hfirst.inside r c hc, Bool.not_eq_true']

end Sys2Proof.Machine
end

section
/-! SUPPORT. The index register and the block transfers (44_memory_ops.md): what each leaves in `I`, in memory and in
the registers. -/

namespace Sys2Proof.Machine

variable {s t : State} {i : Instr} {x : Reg}

/-! ## Block transfers (R193 to R195; decisions D3, D5) -/

/-- A block write puts each of its bytes at the address it has in the block. -/
theorem Memory.read_writeAll_inside {m : Memory} (h : Memory.wf m = true) {a k : Nat} {bs : List Byte}
    (hs : a + bs.length ≤ Config.memSize) (hk : k < bs.length) :
    Memory.read (Memory.writeAll m a bs) (a + k) = bs[k] := by
  rw [Memory.read_writeAll h a bs hs, if_pos (Nat.le_add_right a k), Nat.add_sub_cancel_left,
    List.getD_eq_getElem _ _ hk]

/-- An instruction that completes leaves the bytes it stores at `I` and up. -/
theorem exec_read_stored (h : exec i s = .next t) (hwf : Memory.wf s.mem = true) {k : Nat}
    (hk : k < (storedAtIndex s i).length) : Memory.read t.mem (s.i.toNat + k) = (storedAtIndex s i)[k] := by
  obtain ⟨hmem, hbound⟩ := exec_mem h
  rw [← length_storedAtIndex s i] at hbound
  rw [hmem]
  exact Memory.read_writeAll_inside hwf (by omega) hk

/-- Settles O47: the three digits stored at `I`, division of bytes being that of their numbers, with the frame of
every store. -/
theorem decimalDigitsAreStored : Obligations.DecimalDigitsAreStored := by
  refine fun x s => ⟨fun hin hwf => ?_, fun hout => ?_⟩
  · have ht := (exec_ldB s x).trans (if_neg (by omega))
    have hdigit {k : Nat} (hk : k < 3) := exec_read_stored ht hwf (k := k) hk
    refine ⟨_, ht, ?_, ?_, ?_, exec_sameMemoryOutside ht hwf, exec_changesOnly ht⟩
    · exact congrArg BitVec.toNat (hdigit (k := 0) (by decide))
    · exact congrArg BitVec.toNat (hdigit (k := 1) (by decide))
    · exact congrArg BitVec.toNat (hdigit (k := 2) (by decide))
  · exact (exec_ldB s x).trans (if_pos (by omega))

/-- A register dump that completes leaves each register up to V`x` at its place from `I` up. -/
theorem exec_ldMemVx_read (h : exec (.ldMemVx x) s = .next t) (hwf : Memory.wf s.mem = true) {r : Reg}
    (hr : r.val ≤ x.val) : Memory.read t.mem (s.i.toNat + r.val) = s.readReg r := by
  have hk : r.val < (s.regsUpTo x).length := by rw [State.length_regsUpTo]; omega
  calc Memory.read t.mem (s.i.toNat + r.val)
    _ = (s.regsUpTo x)[r.val] := exec_read_stored h hwf hk
    _ = (s.regsUpTo x).getD r.val 0#8 := (List.getD_eq_getElem _ _ hk).symm
    _ = s.readReg r := s.getD_regsUpTo x r hr _

/-- Settles O48: the registers stored at `I`, with the frame of every store. -/
theorem registerDumpStoresV0ToVx : Obligations.RegisterDumpStoresV0ToVx := by
  refine fun x s => ⟨fun hin hwf => ?_, fun hout => ?_⟩
  · have ht := (exec_ldMemVx s x).trans (if_neg (by omega))
    exact ⟨_, ht, fun r hr => exec_ldMemVx_read ht hwf hr, exec_sameMemoryOutside ht hwf, exec_changesOnly ht⟩
  · exact (exec_ldMemVx s x).trans (if_pos (by omega))

/-- A register within a block loaded from `I` up holds the byte at its place there. -/
theorem readReg_writeRegsFrom0_bytesAtIndex (s : State) {n : Nat} {r : Reg} (hr : r.val < n) :
    (s.writeRegsFrom0 (bytesAtIndex s n)).readReg r = Memory.read s.mem (s.i.toNat + r.val) := by
  rw [State.readReg_writeRegsFrom0, List.getD_eq_getElem?_getD, bytesAtIndex_getElem?_eq_some.mpr ⟨hr, rfl⟩,
    Option.getD_some]

/-- Settles O49: the block of `x` + 1 bytes at `I` written to the registers, with the frame of every instruction. -/
theorem registerLoadReadsV0ToVx : Obligations.RegisterLoadReadsV0ToVx := by
  refine fun x s => ⟨fun hin => ?_, fun hout => ?_⟩
  · have ht := (exec_ldVxMem s x).trans (if_neg (by omega))
    exact ⟨_, ht, fun r hr => readReg_writeRegsFrom0_bytesAtIndex s (Nat.lt_succ_of_le hr), exec_changesOnly ht⟩
  · exact (exec_ldVxMem s x).trans (if_pos (by omega))

/-- Settles O50: a dump that completes fits in memory and keeps `I`, so the load from there completes and reads the
dumped bytes. -/
theorem loadReadsBackDump : Obligations.LoadReadsBackDump := by
  intro x s t u hwf h hmem hi
  have hui : u.i = s.i := hi.trans ((exec_changesOnly h).2 .index (by simp [writtenParts]))
  have hfit : s.i.toNat + (x.val + 1) ≤ 0x1000 := (exec_mem h).2.resolve_left (Nat.succ_ne_zero _)
  have hin : u.i.toNat + x.val ≤ 0xFFF := by rw [hui]; omega
  obtain ⟨w, hw, hregs, -⟩ := (registerLoadReadsV0ToVx x u).1 hin
  refine ⟨w, hw, fun r hr => ?_⟩
  rw [hregs r hr, hmem, hui]
  exact exec_ldMemVx_read h hwf hr

/-! ## The index register (R190 to R192; decision D4) -/

theorem exec_ldI (nnn : Addr12) (s : State) : exec (.ldI nnn) s = .next (s.setI (target nnn)) := rfl

theorem exec_addI (x : Reg) (s : State) : exec (.addI x) s = .next (s.setI (s.i + s.regWide x)) := rfl

theorem exec_ldF (x : Reg) (s : State) : exec (.ldF x) s = .next (s.setI (glyphAddress (s.readReg x))) := rfl

/-- What an instruction that writes `I` alone leaves, `I` read as a number. -/
theorem exec_index {a : Word} {n : Nat} (h : exec i s = .next (s.setI a)) (ha : a.toNat = n) :
    ∃ t, exec i s = .next t ∧ t.i.toNat = n ∧ changesOnly [] [.index] s t :=
  ⟨_, h, ha, changesOnly_setI s a⟩

/-- The glyphs lie five bytes apart, and the last one too is far below the wrap of a word. -/
theorem glyphAddress_toNat (b : Byte) : (glyphAddress b).toNat = 0x050 + 5 * (b.toNat % 16) := by
  have hdigit : (b &&& 0x0F#8).toNat = b.toNat % 16 := Nat.and_two_pow_sub_one_eq_mod b.toNat 4
  have hwide : ((b &&& 0x0F#8).zeroExtend 16).toNat = b.toNat % 16 :=
    (BitVec.toNat_setWidth_of_le (by decide)).trans hdigit
  rw [glyphAddress, BitVec.toNat_add, BitVec.toNat_mul, hwide]
  simp only [fontBase, BitVec.toNat_ofNat]
  omega

/-- Settles O45: the two families, and the write of `I` from the immediate and from the digit. -/
theorem indexLoadAndGlyphAddress : Obligations.IndexLoadAndGlyphAddress := by
  refine ⟨?_, ?_, fun nnn s => exec_index (exec_ldI nnn s) (target_toNat nnn),
    fun x s => exec_index (exec_ldF x s) (glyphAddress_toNat _)⟩
  · exact opcodesNNN_of_decodeWord (f := 0xA#4) fun _ => decodeWord_familyA
  · exact opcodesXSS_of_decodeWord (f := 0xF#4) (kk := 0x29#8) fun _ hf hk => by simp [decodeWord_familyF hf, hk]

/-- Settles O46: the sum of the words, Vx widened. -/
theorem addToIndexWraps : Obligations.AddToIndexWraps := fun x s =>
  exec_index (exec_addI x s) (by rw [BitVec.toNat_add, State.regWide_toNat])

end Sys2Proof.Machine
end

section
/-! SUPPORT. The timers and the keypad (45_timer_input.md): the transfers, the skips by a key's level, and the wait for
a key, which is a poll. -/

namespace Sys2Proof.Machine

variable {s : State} {i : Instr} {x : Reg} {k : Fin 16}

/-! ## The wait for a key (R215) -/

/-- A pressed key with none pressed below it is the one the scan finds. -/
theorem State.lowestKey_of_lowest (hk : s.keyPressed k = true) (hlow : ∀ j, j < k → s.keyPressed j = false) :
    s.lowestKey = some k := by
  cases hfound : s.lowestKey with
  | none => exact absurd (s.lowestKey_eq_none.mp hfound k) (ne_false_of_eq_true hk)
  | some j =>
    obtain ⟨hj, hbelow⟩ := State.lowestKey_eq_some hfound
    obtain hlt | rfl | hgt := lt_trichotomy j k
    · exact absurd (hlow j hlt) (ne_false_of_eq_true hj)
    · rfl
    · exact absurd (hbelow k hgt) (ne_false_of_eq_true hk)

theorem exec_ldVxK_of_pressed (x : Reg) (hk : s.keyPressed k = true) (hlow : ∀ j, j < k → s.keyPressed j = false) :
    exec (.ldVxK x) s = .next (s.writeReg x (keyByte k)) := by
  simp only [exec, execLdVxK, State.lowestKey_of_lowest hk hlow]

theorem exec_ldVxK_of_none_pressed (x : Reg) (h : ∀ j, s.keyPressed j = false) :
    exec (.ldVxK x) s = .next s.rewindPc := by
  simp only [exec, execLdVxK, s.lowestKey_eq_none.mpr h]

theorem keyByte_toNat (k : Fin 16) : (keyByte k).toNat = k.val := by
  rw [keyByte, BitVec.toNat_ofNat]
  omega

/-- Going back undoes the advance in the whole state: `PC` is all that either writes. -/
theorem State.rewindPc_advancePc (s : State) : s.advancePc.rewindPc = s :=
  congrArg s.setPc (advancePc_rewindPc_pc s)

/-- One poll that finds no key is the tick alone. -/
theorem step_of_key_wait (hr : runs s (.ldVxK x)) (h : ∀ j, s.keyPressed j = false) : step s = .next s.tickTimers := by
  rw [step_of_exec_next hr (exec_ldVxK_of_none_pressed x h), State.rewindPc_advancePc]

/-- The tick touches nothing that decides which instruction runs next. -/
theorem runs_tickTimers (h : runs s i) : runs s.tickTimers i := h

/-- Settles O55, by induction on the number of polls: the state after a poll waits for the same key. -/
theorem keyWaitPollsForAnyNumberOfSteps : Obligations.KeyWaitPollsForAnyNumberOfSteps := by
  intro k
  induction k with
  | zero => exact fun x s _ _ => ⟨s, rfl, rfl, rfl, changesOnly_refl _ _ s⟩
  | succ k ih =>
    intro x s hr hkeys
    have ⟨⟨hok, _⟩, _⟩ := hr
    have hpoll : completes s s.tickTimers := ⟨step_of_key_wait hr hkeys, hok⟩
    obtain ⟨t, hrun, hdt, hst, hframe⟩ := ih x s.tickTimers (runs_tickTimers hr) hkeys
    refine ⟨t, ⟨_, hpoll, hrun⟩, ?_, ?_, ?_⟩
    · rw [hdt, tickTimers_dt_toNat]
      omega
    · rw [hst, tickTimers_st_toNat]
      omega
    · exact changesOnly_mono (changesOnly_trans (changesOnly_tickTimers s) hframe) (List.Subset.refl _) (by simp)

theorem opcodesXSS_ldVxK : opcodesXSS 0xF 0x0A .ldVxK :=
  opcodesXSS_of_decodeWord (f := 0xF#4) (kk := 0x0A#8) fun _ hf hk => by simp [decodeWord_familyF hf, hk]

/-- Settles O54: the write of the key found; with none found the return to the instruction, and the poll that ticks. -/
theorem keyWaitTakesLowestKeyOrRewinds : Obligations.KeyWaitTakesLowestKeyOrRewinds := by
  refine ⟨opcodesXSS_ldVxK, fun x s k hk hlow => ?_, fun x s hkeys => ⟨?_, fun hr => ?_⟩⟩
  · obtain ⟨t, ht, hx, hframe⟩ := exec_result (exec_ldVxK_of_pressed x hk hlow)
    exact ⟨t, ht, hx ▸ keyByte_toNat k, hframe⟩
  · exact ⟨_, exec_ldVxK_of_none_pressed x hkeys, rfl, changesOnly_setPc s _⟩
  · exact ⟨_, step_of_key_wait hr hkeys, tickTimers_dt_toNat s, tickTimers_st_toNat s, changesOnly_tickTimers s⟩

/-! ## Skips by a key's level (R213, R214; decision D7) -/

theorem keyIndex_of_toNat_eq {b : Byte} (h : b.toNat = k.val) : keyIndex b = .ok k :=
  (dif_pos (h ▸ k.isLt)).trans (congrArg Except.ok (Fin.ext h))

theorem exec_skp_of_key (h : (s.readReg x).toNat = k.val) :
    exec (.skp x) s = .next (s.skipIf (s.keyPressed k)) := by
  rw [exec, execSkp, keyIndex_of_toNat_eq h, orRaise_ok]

theorem exec_sknp_of_key (h : (s.readReg x).toNat = k.val) :
    exec (.sknp x) s = .next (s.skipIf (!s.keyPressed k)) := by
  rw [exec, execSknp, keyIndex_of_toNat_eq h, orRaise_ok]

theorem skipIf_not_pc (s : State) (c : Bool) : (s.skipIf (!c)).pc = if c = true then s.pc else s.pc + 2#16 := by
  cases c <;> rfl

/-- Settles O53: the skip on the key's level and on its negation; a value that names no key faults. -/
theorem keySkipsTestSnapshot : Obligations.KeySkipsTestSnapshot := by
  refine fun x s => ⟨fun k hk => ⟨?_, ?_⟩, fun hout => ⟨?_, ?_⟩⟩
  · exact ⟨_, exec_skp_of_key hk, changesOnly_skipIf s _, s.skipIf_pc _⟩
  · exact ⟨_, exec_sknp_of_key hk, changesOnly_skipIf s _, skipIf_not_pc s _⟩
  · exact (exec_skp s x).trans (dif_neg (by omega))
  · exact (exec_sknp s x).trans (dif_neg (by omega))

/-! ## The timer transfers (R210 to R212) -/

theorem exec_ldVxDT (x : Reg) (s : State) : exec (.ldVxDT x) s = .next (s.writeReg x s.dt) := rfl

theorem exec_ldDTVx (x : Reg) (s : State) : exec (.ldDTVx x) s = .next (s.setDt (s.readReg x)) := rfl

theorem exec_ldSTVx (x : Reg) (s : State) : exec (.ldSTVx x) s = .next (s.setSt (s.readReg x)) := rfl

theorem opcodesXSS_ldVxDT : opcodesXSS 0xF 0x07 .ldVxDT :=
  opcodesXSS_of_decodeWord (f := 0xF#4) (kk := 0x07#8) fun _ hf hk => by simp [decodeWord_familyF hf, hk]

theorem opcodesXSS_ldDTVx : opcodesXSS 0xF 0x15 .ldDTVx :=
  opcodesXSS_of_decodeWord (f := 0xF#4) (kk := 0x15#8) fun _ hf hk => by simp [decodeWord_familyF hf, hk]

theorem opcodesXSS_ldSTVx : opcodesXSS 0xF 0x18 .ldSTVx :=
  opcodesXSS_of_decodeWord (f := 0xF#4) (kk := 0x18#8) fun _ hf hk => by simp [decodeWord_familyF hf, hk]

/-- Settles O52: the three families, the writes, and the tick that follows a write: it comes after the register has
the old timer, and takes one off a timer just written. -/
theorem timerTransfersAndSameStepTick : Obligations.TimerTransfersAndSameStepTick := by
  refine ⟨opcodesXSS_ldVxDT, opcodesXSS_ldDTVx, opcodesXSS_ldSTVx, fun x s => ⟨?_, ?_, ?_⟩,
    fun x s => ⟨fun hr => ?_, fun hr => ?_, fun hr => ?_⟩⟩
  · exact exec_result (exec_ldVxDT x s)
  · exact ⟨_, exec_ldDTVx x s, rfl, changesOnly_setDt s _⟩
  · exact ⟨_, exec_ldSTVx x s, rfl, changesOnly_setSt s _⟩
  · exact ⟨_, step_of_exec_next hr (exec_ldVxDT x _), s.advancePc.readReg_writeReg_self x s.dt, tickTimers_dt_toNat _⟩
  · exact ⟨_, step_of_exec_next hr (exec_ldDTVx x _), tickTimers_dt_toNat _⟩
  · exact ⟨_, step_of_exec_next hr (exec_ldSTVx x _), tickTimers_st_toNat _⟩

end Sys2Proof.Machine
end

section
/-! SUPPORT. Exceptions and the host's ports (60_exceptions.md): exactly which fault an instruction raises, what the
port `step()` answers, what one transaction can do to the state, and what every run of transactions keeps. -/

namespace Sys2Proof.Machine

variable {s t : State} {i : Instr} {c : Fault}

/-! ## Which fault an instruction raises (R230, R231, R235; decisions D5, D7, D24) -/

/-- The bytes that `i` accesses at `I` reach above 0xFFF, and `c` names the lowest such address; or `i` is a skip on a
key, and `c` names a register's value that is no key. -/
def raisesFault (s : State) (i : Instr) (c : Fault) : Prop :=
  (0 < accessedBytes i ∧ 0x1000 < s.i.toNat + accessedBytes i ∧ c = .memOutOfRange (max s.i.toNat 0x1000)) ∨
    ∃ x, (i = .skp x ∨ i = .sknp x) ∧ 15 < (s.readReg x).toNat ∧ c = .keyIndexOutOfRange (s.readReg x)

theorem ite_fault_next_eq_fault {p : Prop} [Decidable p] {d : Fault} :
    (if p then .fault d else .next t : Host.Outcome State Fault Refusal) = .fault c ↔ p ∧ c = d := by
  split <;> simp [*, eq_comm]

/-- An operation on a key index raises a fault exactly when the index is above 15. -/
theorem orRaise_keyIndex_eq_fault {b : Byte} {k : Fin 16 → State} :
    orRaise (keyIndex b) k = .fault c ↔ 15 < b.toNat ∧ c = .keyIndexOutOfRange b := by
  rw [orRaise_keyIndex]
  split
  · simp only [reduceCtorEq, false_iff]
    omega
  · simp only [Host.Outcome.fault.injEq, eq_comm, iff_and_self]
    omega

/-- An instruction raises the faults of `raisesFault` and no other. -/
theorem exec_eq_fault_iff : exec i s = .fault c ↔ raisesFault s i c := by
  cases i with
  | drw => simp [exec_drw, ite_fault_next_eq_fault, raisesFault, accessedBytes, and_assoc]
  | ldB | ldMemVx | ldVxMem =>
    simp [exec_ldB, exec_ldMemVx, exec_ldVxMem, ite_fault_next_eq_fault, raisesFault, accessedBytes]
  | skp | sknp => exact orRaise_keyIndex_eq_fault.trans (by simp [raisesFault, accessedBytes])
  | ldVxK =>
    refine iff_of_false (fun h => ?_) (by simp [raisesFault, accessedBytes])
    simp only [exec, execLdVxK] at h
    split at h <;> cases h
  | _ => exact iff_of_false nofun (by simp [raisesFault, accessedBytes])

/-- A step records exactly the fault that its instruction raises past the opcode. -/
theorem step_fault_eq_some_iff (hr : runs s i) (h : step s = .next t) :
    t.fault = some c ↔ exec i s.advancePc = .fault c := by
  obtain ⟨u, he, rfl⟩ | ⟨d, he, rfl⟩ := step_cases_of_runs hr h
  · have hu : u.fault = none := (exec_fault_same he).trans hr.1.1
    simp [he, hu]
  · simp [he]

/-- Settles O13: the fault the step records is the instruction's, and the advance of `PC` changes neither `I` nor a
register. -/
theorem faultsExactlyWhenOutOfRange : Obligations.FaultsExactlyWhenOutOfRange :=
  fun _ _ _ hr h _ => (step_fault_eq_some_iff hr h).trans exec_eq_fault_iff

/-! ## The port `step()` (R233, R234; decision D14) -/

theorem stepPort_of_next (h : step s = .next t) : stepPort s = (t, StepResult.ofFault t.fault) := by
  rw [stepPort, h]

theorem stepPort_of_next_fault (h : step s = .next t) (hc : t.fault = some c) : stepPort s = (t, .err c) := by
  rw [stepPort_of_next h, hc]
  rfl

theorem stepPort_of_fault (h : s.fault = some c) : stepPort s = (s, .err c) := by
  rw [stepPort, step_of_fault h]

/-- Settles O14: the state is the one the fault is taken in, and the port reads the cause from it. -/
theorem faultingStepChangesOnlyFaultStatus : Obligations.FaultingStepChangesOnlyFaultStatus :=
  fun _ _ _ hs h hc => ⟨eq_takeFault_of_step hs h hc, stepPort_of_next_fault h hc⟩

/-- The state the port leaves is the step's next one, or as it was. -/
theorem stepPort_fst_cases (s : State) : (stepPort s).1 = s ∨ step s = .next (stepPort s).1 := by
  cases h : step s with
  | next t => exact .inr (by rw [stepPort_of_next h])
  | fault c => exact .inl (by rw [stepPort, h])
  | refused r => exact .inl (by rw [stepPort, h])

/-! ## Transactions (R246 to R249) -/

theorem changesOnly_setKeys (s : State) (k : Vector Bool 16) : changesOnly [] [.keypad] s (s.setKeys k) :=
  ⟨fun _ _ => rfl, fun p hp => by cases p <;> simp_all [Part.same]⟩

/-- Settles O57: the snapshot is read key by key, and the frame is that of its replacement. -/
theorem setKeysReplacesSnapshot : Obligations.SetKeysReplacesSnapshot :=
  fun s k => ⟨s.setKeys k, rfl, s.keyPressed_setKeys k, changesOnly_setKeys s k⟩

/-- Settles O58, by the definitions of the three ports. -/
theorem readPortsReturnAndChangeNothing : Obligations.ReadPortsReturnAndChangeNothing :=
  fun _ => ⟨rfl, rfl, rfl⟩

/-- A load either fails and leaves the state, or stores its image, which ends inside memory (70_reset_and_hazards.md
R262). -/
theorem transact_loadImage_cases (s : State) (bytes : List Byte) (offset : Nat) :
    (transact s (.loadImage bytes offset)).1 = s ∨
      offset + bytes.length ≤ Config.memSize ∧
        (transact s (.loadImage bytes offset)).1 = s.setMem (Memory.writeAll s.mem offset bytes) := by
  by_cases h : offset + bytes.length > Config.memSize
  · exact .inl (by simp only [transact, loadImage, if_pos h])
  · exact .inr ⟨Nat.le_of_not_lt h, by simp only [transact, loadImage, if_neg h]⟩

/-- Everything a transaction can do to the state: leave it, store an image inside memory, replace the keypad
snapshot, or take a step. -/
theorem transact_cases (s : State) (tr : Transaction) :
    (transact s tr).1 = s ∨
    (∃ bytes offset, offset + bytes.length ≤ Config.memSize ∧
      (transact s tr).1 = s.setMem (Memory.writeAll s.mem offset bytes)) ∨
    (∃ k, (transact s tr).1 = s.setKeys k) ∨
    step s = .next (transact s tr).1 := by
  cases tr with
  | loadImage bytes offset =>
    exact (transact_loadImage_cases s bytes offset).imp_right fun h => .inl ⟨bytes, offset, h⟩
  | setKeys k => exact .inr (.inr (.inl ⟨k, rfl⟩))
  | step => exact (stepPort_fst_cases s).imp_right fun h => .inr (.inr h)
  | display | delayTimer | soundTimer => exact .inl rfl

/-! ## Runs of transactions (R253; decision D18) -/

/-- What every transaction keeps, every run keeps. -/
theorem runHost_keeps {P : State → Prop} (hkeep : ∀ s tr, P s → P (transact s tr).1) (hs : P s)
    (trs : List Transaction) : P (runHost s trs) := by
  induction trs generalizing s with
  | nil => exact hs
  | cons tr trs ih => exact ih (hkeep s tr hs)

/-- New contents of memory in canonical form keep the invariant, which says nothing else of memory. -/
theorem inv_setMem {m : Memory} (h : Inv s) (hm : Memory.wf m = true) : Inv (s.setMem m) := by
  obtain ⟨-, hpc, hstack, hfault⟩ := h
  exact ⟨hm, hpc, hstack, hfault⟩

/-- The invariant speaks of no key. -/
theorem inv_setKeys (h : Inv s) (k : Vector Bool 16) : Inv (s.setKeys k) := h

theorem inv_transact (s : State) (tr : Transaction) (h : Inv s) : Inv (transact s tr).1 := by
  obtain heq | ⟨bytes, offset, hin, heq⟩ | ⟨k, heq⟩ | hstep := transact_cases s tr
  · rw [heq]
    exact h
  · rw [heq]
    exact inv_setMem h (Memory.wf_writeAll h.1 offset bytes hin)
  · rw [heq]
    exact inv_setKeys h k
  · exact stepKeepsInvariant s _ h hstep

/-- Settles O18, by induction on the transactions. -/
theorem hostRunKeepsInvariant : Obligations.HostRunKeepsInvariant :=
  fun _ trs hs => runHost_keeps inv_transact hs trs

/-! ## A recorded fault (R234; 70_reset_and_hazards.md R261; decision D14) -/

/-- With a fault recorded no step is taken, so that only a load or a new keypad snapshot changes the state. -/
theorem transact_changesOnly_of_fault (h : s.fault = some c) (tr : Transaction) :
    changesOnly [] [.memory, .keypad] s (transact s tr).1 := by
  obtain heq | ⟨bytes, offset, -, heq⟩ | ⟨k, heq⟩ | hstep := transact_cases s tr
  · rw [heq]
    exact changesOnly_refl _ _ s
  · rw [heq]
    exact changesOnly_mono (changesOnly_setMem s _) (List.Subset.refl _) (by simp)
  · rw [heq]
    exact changesOnly_mono (changesOnly_setKeys s k) (List.Subset.refl _) (by simp)
  · cases (step_of_fault h).symm.trans hstep

theorem fault_same_of_changesOnly (h : changesOnly [] [.memory, .keypad] s t) : t.fault = s.fault :=
  h.2 .faultStatus (by decide)

/-- The frame of one transaction is the frame of any number: it holds the recorded fault. -/
theorem runHost_changesOnly_of_fault (h : s.fault = some c) (trs : List Transaction) :
    changesOnly [] [.memory, .keypad] s (runHost s trs) := by
  refine runHost_keeps (P := changesOnly [] [.memory, .keypad] s) (fun t tr ht => ?_) (changesOnly_refl _ _ s) trs
  have hf : t.fault = some c := (fault_same_of_changesOnly ht).trans h
  exact changesOnly_mono (changesOnly_trans ht (transact_changesOnly_of_fault hf tr)) (by simp) (by simp)

/-- Settles O15: the fault status is outside the frame of the run, so that the port answers the same cause after it. -/
theorem recordedFaultIsAnsweredForEver : Obligations.RecordedFaultIsAnsweredForEver := by
  refine fun s c h => ⟨step_of_fault h, stepPort_of_fault h, fun trs => ?_⟩
  have hframe := runHost_changesOnly_of_fault h trs
  exact ⟨hframe, by rw [stepPort_of_fault ((fault_same_of_changesOnly hframe).trans h)]⟩

end Sys2Proof.Machine
end

section
/-! SUPPORT. The image load and the state `new()` constructs (70_reset_and_hazards.md R260 to R263). -/

namespace Sys2Proof.Machine

/-! ## Load (R262, R263; decision D19) -/

/-- A load that would end past memory fails and leaves the state. -/
theorem transact_loadImage_of_gt (s : State) {bytes : List Byte} {offset : Nat}
    (h : Config.memSize < offset + bytes.length) :
    transact s (.loadImage bytes offset) = (s, .loadFailed .loadOutOfBounds) := by
  simp only [transact, loadImage, if_pos h]

/-- A load that ends inside memory stores its image. -/
theorem transact_loadImage_of_le (s : State) {bytes : List Byte} {offset : Nat}
    (h : offset + bytes.length ≤ Config.memSize) :
    transact s (.loadImage bytes offset) = (s.setMem (Memory.writeAll s.mem offset bytes), .loaded) := by
  simp only [transact, loadImage, if_neg (Nat.not_lt.mpr h)]

/-- Settles O56, by what a block write leaves inside and outside its block, and the frame of a new memory. -/
theorem loadImageCopiesOrFails : Obligations.LoadImageCopiesOrFails := by
  refine fun s bytes offset => ⟨transact_loadImage_of_gt s, fun hin hwf =>
    ⟨_, transact_loadImage_of_le s hin, fun k b hb => ?_, fun a ha => ?_, changesOnly_setMem s _⟩⟩
  · obtain ⟨hk, rfl⟩ := List.getElem?_eq_some_iff.mp hb
    exact Memory.read_writeAll_inside hwf hin hk
  · exact Memory.read_writeAll_outside hwf hin ha

/-! ## Reset (R260; 10_state.md R20 to R35) -/

@[simp] theorem State.readReg_reset (r : Reg) : State.reset.readReg r = 0#8 :=
  Vector.getElem_replicate r.isLt

@[simp] theorem State.getElem_stack_reset (p : Fin 16) : State.reset.stack[p.val] = 0#16 :=
  Vector.getElem_replicate p.isLt

@[simp] theorem State.keyPressed_reset (k : Fin 16) : State.reset.keyPressed k = false :=
  Vector.getElem_replicate k.isLt

/-- Memory at reset lists no byte, so that every address reads as its reset contents. -/
@[simp] theorem Memory.read_reset (a : Nat) : Memory.read State.reset.mem a = resetByte a := rfl

theorem length_font : font.length = 80 := rfl

/-- Outside the font's 80 bytes the reset contents are 0 (10_state.md R28). -/
theorem resetByte_outside_font {a : Nat} (h : a < fontBase ∨ fontBase + font.length ≤ a) : resetByte a = 0#8 := by
  unfold resetByte
  split
  · rfl
  · exact List.getD_eq_default _ _ (by omega)

/-- The font stands at its base (10_state.md R29). -/
theorem resetByte_font {k : Nat} {b : Byte} (h : font[k]? = some b) : resetByte (fontBase + k) = b := by
  rw [resetByte, if_neg (by omega), Nat.add_sub_cancel_left, List.getD_eq_getElem?_getD, h, Option.getD_some]

/-- Settles O16: a memory that lists no byte is in canonical form, the bounds hold of the reset values, and with no
fault recorded none is untruthful. -/
theorem resetMeetsInvariant : Obligations.ResetMeetsInvariant :=
  ⟨Memory.wf_reset, by decide, fun p => by simp, faultTruthful_of_none rfl⟩

/-- Settles O59: registers, stack and keys are read one by one, the display is the cleared one, and memory reads as its
reset contents. -/
theorem newEngineIsReset : Obligations.NewEngineIsReset :=
  ⟨rfl, State.readReg_reset, rfl, rfl, State.getElem_stack_reset, rfl, rfl, Framebuffer.pixel_clear,
    State.keyPressed_reset, rfl, rfl,
    fun _ ha => resetByte_outside_font (by simp only [fontBase, length_font]; omega),
    length_font, fun _ _ hb => resetByte_font hb⟩

end Sys2Proof.Machine
end
